-- ==== Sys2Proof/Word.lean ====
section
/-! DEFINITION. The widths of the core's values (00_scope.md R10) and nothing else. All values are unsigned and wrap to their width
(R16, R18), which is what `BitVec` arithmetic does. -/

namespace Sys2Proof

/-- A 4-bit value; also a round-key mask (R10). -/
abbrev Nibble := BitVec 4

/-- A 16-bit block, equally a 16-bit key, round key or cipher state in its packed form (R10, R120). -/
abbrev Block := BitVec 16

/-- An 8-bit word of the key schedule (R10). -/
abbrev KeyWord := BitVec 8

/-- A 32-bit word of the host bus (10_state.md R25). -/
abbrev BusWord := BitVec 32

/-- A 17-bit byte address of the host register space (20_memory.md R50). -/
abbrev HostAddr := BitVec 17

/-- One byte of the host address space. -/
abbrev Byte := BitVec 8

end Sys2Proof
end

