-- ==== Sys2Proof/Config.lean ====
section
/-! DEFINITION. What an implementation fixes (the parameters of 00_scope.md section 3) and the values the spec leaves free.
Every constant the machine uses from here is `opaque`: no proof can see its value, so a claim holds for every implementation. -/

namespace Sys2Proof

/-- The two experiments of the harness (44_harness.md R190): the plaintext is perturbed, or the key. -/
inductive Experiment
  | pt
  | key
deriving DecidableEq, Repr, Inhabited

/-- The two cipher variants (00_scope.md R4). -/
inductive Variant
  | baseline
  | enhanced
deriving DecidableEq, Repr, Inhabited

/-- Parameter STDDEV_KIND (00_scope.md R14). -/
inductive StddevKind
  | population
  | sample
deriving DecidableEq, Repr, Inhabited

/-- What TRIAL_SOURCE gives for one trial: a plaintext, a key and a bit index 0 to 15 (00_scope.md R12). -/
structure Draw where
  p : Block
  k : Block
  b : Nibble
deriving DecidableEq, Repr, Inhabited

/-- Parameter SBOX with its well-formedness (00_scope.md R11, 40_field_and_tables.md R103): a bijection on 4-bit values.
SBOX_INV is its inverse, `Equiv.symm`, not a parameter of its own. -/
abbrev Sbox := Equiv.Perm Nibble

/-- The parameters of an implementation. LATENCY (R15) is absent: no rule depends on it (log 10). -/
structure Params where
  /-- SBOX (R11). -/
  sbox : Sbox
  /-- TRIAL_SOURCE(exp, seed, i) (R12): a total deterministic function. -/
  trialSource : Experiment → BusWord → Nat → Draw
  /-- T_MAX less one, so that the type itself says 1 ≤ T_MAX ≤ 8192 (R13). -/
  tMaxPred : Fin 8192
  /-- STDDEV_KIND (R14). -/
  stddevKind : StddevKind
deriving Inhabited

/-- T_MAX, the largest trial count one harness command accepts (R13). -/
def Params.tMax (P : Params) : Nat := P.tMaxPred.val + 1

/-- The parameters of the machine that `step` runs: any well-formed ones (log 6). -/
opaque Config.params : Params

/-- The `n`-th free value: what the bus returns for an output read while the core is busy (20_memory.md R61, log 5). -/
opaque Config.freeWord : Nat → BusWord

end Sys2Proof
end

