-- ==== Sys2Proof/Syntax.lean ====
section
/-! DEFINITION. The commands of the core, one constructor per row of spec/opcode_table.json (30_encoding.md R73). A command word
has no immediate, register or mode field (R71), so no constructor has an argument: every operand comes from LATCH. -/

namespace Sys2Proof

inductive Instr
  /-- GFMUL, 0x01 (R105). -/
  | gfmul
  /-- SBOXF, 0x02 (R106). -/
  | sboxf
  /-- SBOXI, 0x03 (R107). -/
  | sboxi
  /-- XORST, 0x04 (R128). -/
  | xorst
  /-- RKMASK, 0x05 (R129). -/
  | rkmask
  /-- KEYEXP, 0x06 (R130). -/
  | keyexp
  /-- SUBNIB, 0x08 (R147). -/
  | subnib
  /-- INVSUBNIB, 0x09 (R148). -/
  | invsubnib
  /-- SUBNIBD, 0x0A (R149). -/
  | subnibd
  /-- INVSUBNIBD, 0x0B (R150). -/
  | invsubnibd
  /-- SHROWS, 0x0C (R151). -/
  | shrows
  /-- INVSHROWS, 0x0D (R152). -/
  | invshrows
  /-- MIXCOL, 0x0E (R153). -/
  | mixcol
  /-- INVMIXCOL, 0x0F (R154). -/
  | invmixcol
  /-- ENC.B, 0x10 (R174). -/
  | encB
  /-- DEC.B, 0x11 (R175). -/
  | decB
  /-- ENC.E, 0x12 (R176). -/
  | encE
  /-- DEC.E, 0x13 (R177). -/
  | decE
  /-- AVAL.PT, 0x20 (R196). -/
  | avalPt
  /-- AVAL.KEY, 0x21 (R197). -/
  | avalKey
deriving DecidableEq, Repr

end Sys2Proof
end

