-- ==== Sys2Proof/WellFormed.lean ====
section
/-! DEFINITION. The checks the spec puts on what comes from outside: the command word (30_encoding.md R70, R72, R74), the SBOX table
(40_field_and_tables.md R103), T_MAX (00_scope.md R13). -/

namespace Sys2Proof

/-- A command carries no operand (R71), so every constructor is a well-formed command. -/
def Instr.wf (_ : Instr) : Bool := true

/-- RSVD, `CMD[31:8]`, of a command word (R70). -/
def reservedField (w : BusWord) : BitVec 24 := w.extractLsb' 8 24

/-- OPCODE, `CMD[7:0]`, of a command word (R70). -/
def opcodeField (w : BusWord) : BitVec 8 := w.extractLsb' 0 8

/-- The reserved OPCODE values as R74 lists them: 0x00, 0x07, 0x14 to 0x1F, 0x22 to 0xFF. -/
def reservedOpcode (op : BitVec 8) : Bool :=
  op == 0x00 || op == 0x07 || (0x14 ≤ op.toNat && op.toNat ≤ 0x1F) || 0x22 ≤ op.toNat

/-- A legal command word (R74): RSVD is zero and OPCODE is not reserved. Written from R74's list, independently of the decoder. -/
def legalWord (w : BusWord) : Bool := reservedField w == 0 && !reservedOpcode (opcodeField w)

/-- Why a configuration is refused. -/
inductive ConfigError
  /-- The SBOX table is not a permutation of 0 to 15 (R103). Safe: such a core is ill-formed. -/
  | sboxNotPermutation
  /-- T_MAX is not between 1 and 8192 (R13). Safe: the spec admits no such core. -/
  | tMaxOutOfRange
deriving DecidableEq, Repr

/-- Entry `x` of a table (R104). -/
def tableAt (t : List Nibble) (x : Nibble) : Nibble := t.getD x.toNat 0

/-- The place of value `y` in a table: the entry `y` of the inverse table (R103). -/
def tableInverseAt (t : List Nibble) (y : Nibble) : Nibble := BitVec.ofNat 4 (t.idxOf y)

/-- R103's condition on a table of 16 entries: SBOX_INV[SBOX[x]] = x and SBOX[SBOX_INV[x]] = x for all x. -/
abbrev TableWf (t : List Nibble) : Prop :=
  t.length = 16 ∧ (∀ x, tableInverseAt t (tableAt t x) = x) ∧ ∀ y, tableAt t (tableInverseAt t y) = y

/-- The SBOX parameter from a table of entries; a table that is not a permutation is refused (R103). -/
def Sbox.ofTable (t : List Nibble) : Except ConfigError Sbox :=
  if h : TableWf t then .ok ⟨tableAt t, tableInverseAt t, h.2.1, h.2.2⟩ else .error .sboxNotPermutation

/-- The T_MAX parameter from a number; a number outside 1 to 8192 is refused (R13). -/
def tMaxOfNat (n : Nat) : Except ConfigError (Fin 8192) :=
  if h : 1 ≤ n ∧ n ≤ 8192 then .ok ⟨n - 1, by omega⟩ else .error .tMaxOutOfRange

end Sys2Proof
end

