-- ==== Sys2Proof/Decode.lean ====
section
/-! DEFINITION. The command decoder (30_encoding.md R76), total on 32-bit words, and after it the encoder (R73). -/

namespace Sys2Proof

/-- The opcode map (R73, R76). -/
def decodeOpcode (op : BitVec 8) : Option Instr :=
  match op with
  | 0x01 => some .gfmul
  | 0x02 => some .sboxf
  | 0x03 => some .sboxi
  | 0x04 => some .xorst
  | 0x05 => some .rkmask
  | 0x06 => some .keyexp
  | 0x08 => some .subnib
  | 0x09 => some .invsubnib
  | 0x0A => some .subnibd
  | 0x0B => some .invsubnibd
  | 0x0C => some .shrows
  | 0x0D => some .invshrows
  | 0x0E => some .mixcol
  | 0x0F => some .invmixcol
  | 0x10 => some .encB
  | 0x11 => some .decB
  | 0x12 => some .encE
  | 0x13 => some .decE
  | 0x20 => some .avalPt
  | 0x21 => some .avalKey
  | _ => none

/-- Decode (R76). `none` is the spec's Illegal, for which the CORE step records ILLEGAL_CMD (R74, R78). -/
def decode (w : BusWord) : Option Instr :=
  if reservedField w = 0 then decodeOpcode (opcodeField w) else none

/-- The word that the bits `w` of a command of `nbits` bits are on the bus: bits above `nbits` are zero. A command is exactly one
32-bit word (R75), so there is no byte or word order to apply (20_memory.md R58). -/
def commandWord (nbits w : Nat) : BusWord := BitVec.ofNat 32 (w % 2 ^ nbits)

/-- The command the decoder reads from a row's bits. -/
def decodeTableWord (nbits w : Nat) : Option Instr := decode (commandWord nbits w)

/-- The OPCODE of a command (R73). -/
def opcode (i : Instr) : BitVec 8 :=
  match i with
  | .gfmul => 0x01
  | .sboxf => 0x02
  | .sboxi => 0x03
  | .xorst => 0x04
  | .rkmask => 0x05
  | .keyexp => 0x06
  | .subnib => 0x08
  | .invsubnib => 0x09
  | .subnibd => 0x0A
  | .invsubnibd => 0x0B
  | .shrows => 0x0C
  | .invshrows => 0x0D
  | .mixcol => 0x0E
  | .invmixcol => 0x0F
  | .encB => 0x10
  | .decB => 0x11
  | .encE => 0x12
  | .decE => 0x13
  | .avalPt => 0x20
  | .avalKey => 0x21

/-- The 32-bit command word of a command: RSVD zero, then OPCODE (R70, R73). -/
def encode (i : Instr) : BusWord := 0#24 ++ opcode i

end Sys2Proof
end

