-- ==== Sys2Proof/Machine/State.lean ====
section
/-! DEFINITION. The state of the core (10_state.md), the host's side of the bus, the faults and the refusals. Plain data. -/

namespace Sys2Proof.Machine

/-- Why a run stops with a fault. Both are raised by host accesses only (60_exceptions.md R231); no command faults. -/
inductive Fault
  /-- A host access that is not 32-bit, not aligned, or not to a mapped address (20_memory.md R51, R53). Raised by the bus.
  Safe: the spec names this fault. -/
  | busError (addr : HostAddr)
  /-- A host read of a TREC word that nothing has written since reset (10_state.md R49). Raised by the bus.
  Safe: the spec names this fault. -/
  | readUnwritten (addr : HostAddr)
deriving DecidableEq, Repr

/-- Why a step has no meaning. -/
inductive Refusal
  /-- The command has no meaning yet; raised by `exec`'s arms alone. No arm is refused. Safe. -/
  | notModelled (mnemonic : String)
deriving DecidableEq, Repr

/-- The width of a host access. Only `word` exists on this bus; the others fault (20_memory.md R51). -/
inductive AccessWidth
  | byte
  | half
  | word
deriving DecidableEq, Repr

/-- One operation of the HOST agent (30_encoding.md R79, R80). -/
inductive HostOp
  /-- `WR`: a bus write of `data`. -/
  | write (addr : HostAddr) (width : AccessWidth) (data : BusWord)
  /-- `RD`: a bus read. -/
  | read (addr : HostAddr) (width : AccessWidth)
  /-- `WAIT`: read STATUS until BUSY reads 0; one step is one read. -/
  | wait
deriving DecidableEq, Repr

/-- Whose move a step is (00_scope.md R20), or the reset input (70_reset_and_hazards.md R250). -/
inductive Turn
  | host
  | core
  | reset
deriving DecidableEq, Repr

/-- A data word the bus returned, with the address that was read. -/
structure Answer where
  addr : HostAddr
  data : BusWord
deriving DecidableEq, Repr

/-- STATUS (R27), field by field; its reserved bits read as 0. -/
structure Status where
  /-- STATUS[0] (R28). -/
  busy : Bool
  /-- STATUS[1] (R29). -/
  done : Bool
  /-- STATUS[2] (R30). -/
  err : Bool
  /-- STATUS[7:4] (R30). -/
  errcode : BitVec 4
  /-- STATUS[9:8] (R31). -/
  lastExp : BitVec 2
deriving DecidableEq, Repr

/-- The statistics registers of one variant (R39 to R42). -/
structure Stats where
  /-- STAT_X_COUNT (R39). -/
  count : BusWord
  /-- STAT_X_SUM (R40). -/
  sum : BusWord
  /-- STAT_X_SUMSQ (R41). -/
  sumsq : BusWord
  /-- STAT_X_MINMAX[4:0] (R42). -/
  min : BitVec 5
  /-- STAT_X_MINMAX[12:8] (R42). -/
  max : BitVec 5
deriving DecidableEq, Repr

/-- LATCH, the snapshot of a command's inputs taken at issue (R45). Once the command has completed, the spec lets it hold any value, not
observable; DESIGN CHOICE: it keeps the snapshot (log 4). -/
structure Latch where
  cmd : BusWord
  a : Block
  b : Block
  /-- CTRL[0] at issue: FORCE_MASK_ZERO. -/
  ctrl : Bool
  trials : BusWord
  seed : BusWord
deriving DecidableEq, Repr

/-- The bytes written so far, as (address, byte) pairs in rising order; an unlisted address is unwritten (R49, log 9). -/
abbrev Memory := List Host.Cell

/-- What lies outside the core: the model's own bookkeeping of the host, of the order of the agents' moves and of free values. -/
structure Environment where
  /-- The host operations still to come, oldest first (log 1). -/
  pending : List HostOp
  /-- Whose move the next steps are; past its end CORE moves while it is busy and HOST moves else (log 2). -/
  turns : List Turn
  /-- The words the bus has returned, newest first (log 1). -/
  answers : List Answer
  /-- How many free values have been drawn (log 5). -/
  draws : Nat
deriving DecidableEq, Repr

/-- The machine: every register of R25, TREC (R43), LATCH (R45), and the environment. -/
structure State where
  /-- CMD (R26). -/
  cmd : BusWord
  /-- STATUS (R27). -/
  status : Status
  /-- CTRL[0], FORCE_MASK_ZERO (R32). -/
  ctrl : Bool
  /-- OPA[15:0] (R33). -/
  opa : Block
  /-- OPB[15:0] (R34). -/
  opb : Block
  /-- RESULT[15:0] (R35). -/
  result : Block
  /-- RK0[15:0] (R36). -/
  rk0 : Block
  /-- RK1[15:0] (R36). -/
  rk1 : Block
  /-- RK2[15:0] (R36). -/
  rk2 : Block
  /-- TRIALS (R37). -/
  trials : BusWord
  /-- SEED (R38). -/
  seed : BusWord
  /-- STAT_B_* (R39 to R42): the baseline variant's statistics. -/
  statB : Stats
  /-- STAT_E_* (R39 to R42): the enhanced variant's statistics. -/
  statE : Stats
  /-- TREC (R43), at its host byte addresses (20_memory.md R56). -/
  trec : Memory
  /-- LATCH (R45). -/
  latch : Latch
  /-- The model's own fields. -/
  env : Environment
deriving DecidableEq, Repr

/-- STATUS after reset: idle, no result, no error, no experiment (R27, R48). -/
def Status.reset : Status := { busy := false, done := false, err := false, errcode := 0, lastExp := 0 }

/-- STAT registers after reset (R39 to R42, R48). -/
def Stats.reset : Stats := { count := 0, sum := 0, sumsq := 0, min := 0, max := 0 }

/-- LATCH after reset: unspecified and unobservable (R45, R251). DESIGN CHOICE: zero (log 4, unsafe). -/
def Latch.reset : Latch := { cmd := 0, a := 0, b := 0, ctrl := false, trials := 0, seed := 0 }

/-- Nothing pending, no turns fixed, nothing answered, nothing drawn. DESIGN CHOICE (logs 1, 2 and 5). -/
def Environment.reset : Environment := { pending := [], turns := [], answers := [], draws := 0 }

/-- The machine right after reset: every register 0, every TREC word unwritten (R48, R49, 70_reset_and_hazards.md R251). -/
def State.reset : State :=
  { cmd := 0, status := Status.reset, ctrl := false, opa := 0, opb := 0, result := 0, rk0 := 0, rk1 := 0, rk2 := 0,
    trials := 0, seed := 0, statB := Stats.reset, statE := Stats.reset, trec := [], latch := Latch.reset,
    env := Environment.reset }

end Sys2Proof.Machine
end

