-- ==== Sys2Proof/Machine/Flags.lean ====
section
/-! DEFINITION. The STATUS register (10_state.md R27 to R31): its word, and how issue, completion and an error change it. -/

namespace Sys2Proof.Machine

/-- The command errors (60_exceptions.md R222). -/
inductive CmdError
  | illegalCmd
  | trialsZero
  | trialsRange
deriving DecidableEq, Repr

/-- STATUS.ERRCODE of a command error (R222). -/
def errorCode (e : CmdError) : BitVec 4 :=
  match e with
  | .illegalCmd => 1
  | .trialsZero => 2
  | .trialsRange => 3

/-- STATUS.LAST_EXP of an experiment (10_state.md R31). -/
def experimentCode (x : Experiment) : BitVec 2 :=
  match x with
  | .pt => 1
  | .key => 2

/-- The word a read of STATUS returns (10_state.md R27): bits 3 and 31 to 10 are reserved and read as 0. -/
def statusWord (st : Status) : BusWord :=
  0#22 ++ st.lastExp ++ st.errcode ++ 0#1 ++ BitVec.ofBool st.err ++ BitVec.ofBool st.done ++ BitVec.ofBool st.busy

/-- STATUS at issue (20_memory.md R59): BUSY set, DONE, ERR and ERRCODE cleared, LAST_EXP unchanged. -/
def Status.issued (st : Status) : Status := { st with busy := true, done := false, err := false, errcode := 0 }

/-- STATUS at completion (30_encoding.md R78): BUSY cleared, DONE set, the rest unchanged. -/
def Status.completed (st : Status) : Status := { st with busy := false, done := true }

/-- STATUS at completion with an error (60_exceptions.md R227): ERR and ERRCODE recorded as well, LAST_EXP unchanged. -/
def Status.failed (e : CmdError) (st : Status) : Status :=
  { st with busy := false, done := true, err := true, errcode := errorCode e }

end Sys2Proof.Machine
end

