-- ==== Sys2Proof/Machine/Memory.lean ====
section
/-! DEFINITION. Memory as the list of written bytes, in one canonical form: addresses strictly rising. An unlisted address reads as
no value, so no entry can equal it. TREC is the only memory of the core (20_memory.md R50). -/

namespace Sys2Proof.Machine

/-- The canonical form: addresses strictly rising. -/
abbrev Memory.wf (m : Memory) : Prop := m.Pairwise (fun c d => c.1 < d.1)

/-- The byte at an address; none where nothing has been written. -/
def Memory.readByte (m : Memory) (a : Nat) : Option Byte := m.lookup a

/-- The cells of consecutive bytes from an address on. -/
def cellsFrom (base : Nat) (bs : List Byte) : Memory :=
  match bs with
  | [] => []
  | b :: rest => (base, b) :: cellsFrom (base + 1) rest

/-- Write consecutive bytes from an address on; every other address keeps what it held. -/
def Memory.writeBytes (m : Memory) (base : Nat) (bs : List Byte) : Memory :=
  m.filter (fun c => c.1 < base) ++ (cellsFrom base bs ++ m.filter (fun c => base + bs.length ≤ c.1))

/-- The four bytes of a bus word, least significant first. DESIGN CHOICE, not observable: only whole words are read or written
(20_memory.md R51, R58, log 8). -/
def wordBytes (w : BusWord) : List Byte :=
  [w.extractLsb' 0 8, w.extractLsb' 8 8, w.extractLsb' 16 8, w.extractLsb' 24 8]

/-- The bus word of four bytes, least significant first. -/
def bytesWord (b0 b1 b2 b3 : Byte) : BusWord := b3 ++ b2 ++ b1 ++ b0

/-- The word at an address; none unless all of it has been written. -/
def Memory.readWord (m : Memory) (a : Nat) : Option BusWord :=
  match Memory.readByte m a, Memory.readByte m (a + 1), Memory.readByte m (a + 2), Memory.readByte m (a + 3) with
  | some b0, some b1, some b2, some b3 => some (bytesWord b0 b1 b2 b3)
  | _, _, _, _ => none

/-- The host byte address of TREC[0] (20_memory.md R52, R56). -/
def trecBase : Nat := 0x10000

/-- The host byte address of word 0 of TREC[i] (20_memory.md R56). -/
def trecWord0 (i : Nat) : Nat := trecBase + 8 * i

/-- The host byte address of word 1 of TREC[i] (20_memory.md R56). -/
def trecWord1 (i : Nat) : Nat := trecBase + 8 * i + 4

end Sys2Proof.Machine
end

