-- ==== Sys2Proof/Machine/Ops.lean ====
section
/-! DEFINITION. The operations every agent's step is made of: issue, completion, a command error, reset, and the environment's. -/

namespace Sys2Proof.Machine

/-- The outcome of a step of this machine. -/
abbrev Outcome := Host.Outcome State Fault Refusal

/-- The issue of command word `v` (20_memory.md R59), one atomic action: CMD stored, the operands latched, STATUS updated. -/
def issue (v : BusWord) (s : State) : State :=
  { s with
    cmd := v
    latch := { cmd := v, a := s.opa, b := s.opb, ctrl := s.ctrl, trials := s.trials, seed := s.seed }
    status := s.status.issued }

/-- The completion write of a successful command (30_encoding.md R78). DESIGN CHOICE: LATCH keeps the command's snapshot until the next
issue or reset, where the spec lets it hold any value while BUSY = 0, not observable (10_state.md R45, log 4). -/
def complete (s : State) : State := { s with status := s.status.completed }

/-- A successful command that writes RESULT (10_state.md R35). -/
def completeWithResult (v : Block) (s : State) : State := complete { s with result := v }

/-- A successful command with a 4-bit result, stored zero-extended (10_state.md R35). -/
def completeWithNibble (v : Nibble) (s : State) : State := completeWithResult (v.setWidth 16) s

/-- A successful KEYEXP, which writes RK0 to RK2 and not RESULT (10_state.md R36). -/
def completeWithKeys (k0 k1 k2 : Block) (s : State) : State := complete { s with rk0 := k0, rk1 := k1, rk2 := k2 }

/-- `raise CmdError(e)`, the core's one exception (60_exceptions.md R227): STATUS records the error and the command completes;
nothing is saved, no mode changes, no control transfers, and no other register is written; LATCH stays as in `complete` (log 4). There is no return operation (R228):
ERR and ERRCODE stay until `issue` or `resetCore` clears them. -/
def raiseCmdError (e : CmdError) (s : State) : State := { s with status := s.status.failed e }

/-- Reset of the core (70_reset_and_hazards.md R250, R251): every register and TREC as `State.reset` has them, a command in flight
aborted with none of its outputs written. The environment is not the core's and stays (log 2). -/
def resetCore (s : State) : State := { State.reset with env := s.env }

/-- The environment's record of a word the bus returned (log 1). -/
def answer (a : HostAddr) (v : BusWord) (s : State) : State :=
  { s with env := { s.env with answers := ⟨a, v⟩ :: s.env.answers } }

/-- A read that returns an unconstrained word (20_memory.md R61): the next free value is drawn (log 5). -/
def answerFree (a : HostAddr) (s : State) : State :=
  { s with env :=
    { s.env with answers := ⟨a, Config.freeWord s.env.draws⟩ :: s.env.answers, draws := s.env.draws + 1 } }

/-- The host operations still to come become `ops`. -/
def setPending (ops : List HostOp) (s : State) : State := { s with env := { s.env with pending := ops } }

/-- The turns still to come become `ts`. -/
def setTurns (ts : List Turn) (s : State) : State := { s with env := { s.env with turns := ts } }

end Sys2Proof.Machine
end

