-- ==== Sys2Proof/Machine/Bus.lean ====
section
/-! DEFINITION. The host bus (20_memory.md): the register map, reads and writes. -/

namespace Sys2Proof.Machine

/-- The named registers of the map (R52). -/
inductive Register
  | cmd
  | status
  | ctrl
  | opa
  | opb
  | result
  | rk0
  | rk1
  | rk2
  | trials
  | seed
  | statBCount
  | statBSum
  | statBSumsq
  | statBMinmax
  | statECount
  | statESum
  | statESumsq
  | statEMinmax
deriving DecidableEq, Repr

/-- The address of a register (R52). -/
def registerAddr (r : Register) : HostAddr :=
  match r with
  | .cmd => 0x00000
  | .status => 0x00004
  | .ctrl => 0x00008
  | .opa => 0x0000C
  | .opb => 0x00010
  | .result => 0x00014
  | .rk0 => 0x00018
  | .rk1 => 0x0001C
  | .rk2 => 0x00020
  | .trials => 0x00024
  | .seed => 0x00028
  | .statBCount => 0x00030
  | .statBSum => 0x00034
  | .statBSumsq => 0x00038
  | .statBMinmax => 0x0003C
  | .statECount => 0x00040
  | .statESum => 0x00044
  | .statESumsq => 0x00048
  | .statEMinmax => 0x0004C

/-- Every register of the map, in the order of R52. -/
def allRegisters : List Register :=
  [.cmd, .status, .ctrl, .opa, .opb, .result, .rk0, .rk1, .rk2, .trials, .seed, .statBCount, .statBSum, .statBSumsq,
    .statBMinmax, .statECount, .statESum, .statESumsq, .statEMinmax]

/-- The register at an address, if there is one. -/
def registerAt (a : HostAddr) : Option Register := allRegisters.find? (fun r => registerAddr r == a)

/-- What a mapped address names. -/
inductive BusTarget
  /-- A named register. -/
  | register (r : Register)
  /-- A TREC word, at the byte address `a` (R56). -/
  | trecWord (a : Nat)
deriving DecidableEq, Repr

/-- The map (R52, R56), with `tMax` trial records; none at an unmapped address (R53). -/
def busTarget (tMax : Nat) (a : HostAddr) : Option BusTarget :=
  match registerAt a with
  | some r => some (.register r)
  | none => if trecBase ≤ a.toNat ∧ a.toNat < trecBase + 8 * tMax then some (.trecWord a.toNat) else none

/-- What an access reaches: none when it is a bus error, being not 32-bit, not aligned (R51) or not mapped (R53). -/
def accessTarget (tMax : Nat) (a : HostAddr) (w : AccessWidth) : Option BusTarget :=
  if w = .word ∧ a.extractLsb' 0 2 = 0 then busTarget tMax a else none

/-- The registers whose value is unconstrained while the core is busy (R61): RESULT, RK0 to RK2, every STAT register. -/
def isOutput (r : Register) : Bool :=
  match r with
  | .cmd | .status | .ctrl | .opa | .opb | .trials | .seed => false
  | .result | .rk0 | .rk1 | .rk2 => true
  | .statBCount | .statBSum | .statBSumsq | .statBMinmax => true
  | .statECount | .statESum | .statESumsq | .statEMinmax => true

/-- The MINMAX word (10_state.md R42): MAX in bits 12 to 8, MIN in bits 4 to 0, the rest 0. -/
def minmaxWord (st : Stats) : BusWord := 0#19 ++ st.max ++ 0#3 ++ st.min

/-- The word a register holds, its reserved bits 0 (R55, 10_state.md R25). -/
def readRegister (r : Register) (s : State) : BusWord :=
  match r with
  | .cmd => s.cmd
  | .status => statusWord s.status
  | .ctrl => 0#31 ++ BitVec.ofBool s.ctrl
  | .opa => s.opa.setWidth 32
  | .opb => s.opb.setWidth 32
  | .result => s.result.setWidth 32
  | .rk0 => s.rk0.setWidth 32
  | .rk1 => s.rk1.setWidth 32
  | .rk2 => s.rk2.setWidth 32
  | .trials => s.trials
  | .seed => s.seed
  | .statBCount => s.statB.count
  | .statBSum => s.statB.sum
  | .statBSumsq => s.statB.sumsq
  | .statBMinmax => minmaxWord s.statB
  | .statECount => s.statE.count
  | .statESum => s.statE.sum
  | .statESumsq => s.statE.sumsq
  | .statEMinmax => minmaxWord s.statE

/-- A host write to a register: CMD issues a command unless one is in flight (R59, 10_state.md R26), an RW register stores the bits it
uses (R55, R60, 10_state.md R32 to R38), an RO register ignores it (R54). -/
def writeRegister (r : Register) (v : BusWord) (s : State) : State :=
  match r with
  | .cmd => if s.status.busy then s else issue v s
  | .ctrl => { s with ctrl := v.getLsbD 0 }
  | .opa => { s with opa := v.extractLsb' 0 16 }
  | .opb => { s with opb := v.extractLsb' 0 16 }
  | .trials => { s with trials := v }
  | .seed => { s with seed := v }
  | .status | .result | .rk0 | .rk1 | .rk2 => s
  | .statBCount | .statBSum | .statBSumsq | .statBMinmax => s
  | .statECount | .statESum | .statESumsq | .statEMinmax => s

/-- A host read with `tMax` trial records: the stored word, a free word for an output or a TREC word while busy (R61, log 7), a fault
for a TREC word never written (10_state.md R49), a bus error otherwise (R51, R53). -/
def hostReadUnder (tMax : Nat) (a : HostAddr) (w : AccessWidth) (s : State) : Outcome :=
  match accessTarget tMax a w with
  | none => .fault (.busError a)
  | some (.register r) =>
    if s.status.busy && isOutput r then .next (answerFree a s) else .next (answer a (readRegister r s) s)
  | some (.trecWord at_) =>
    if s.status.busy then .next (answerFree a s)
    else
      match Memory.readWord s.trec at_ with
      | some v => .next (answer a v s)
      | none => .fault (.readUnwritten a)

/-- A host write with `tMax` trial records: to a register as `writeRegister` says, to a TREC word without effect (R54), a bus error
otherwise (R51, R53). -/
def hostWriteUnder (tMax : Nat) (a : HostAddr) (w : AccessWidth) (v : BusWord) (s : State) : Outcome :=
  match accessTarget tMax a w with
  | none => .fault (.busError a)
  | some (.register r) => .next (writeRegister r v s)
  | some (.trecWord _) => .next s

/-- A host read of this machine. -/
def hostRead (a : HostAddr) (w : AccessWidth) (s : State) : Outcome := hostReadUnder Config.params.tMax a w s

/-- A host write of this machine. -/
def hostWrite (a : HostAddr) (w : AccessWidth) (v : BusWord) (s : State) : Outcome := hostWriteUnder Config.params.tMax a w v s

/-- One read of STATUS by the pseudo-instruction WAIT (30_encoding.md R80), which stays pending until BUSY reads 0; `rest` is what the
host does after it. -/
def hostPoll (rest : List HostOp) (s : State) : Outcome :=
  let w := readRegister .status s
  let s' := answer (registerAddr .status) w s
  .next (if w.getLsbD 0 then s' else setPending rest s')

/-- The HOST agent's move (20_memory.md R63): the first pending operation, in program order; nothing when none is pending. -/
def hostMove (s : State) : Outcome :=
  match s.env.pending with
  | [] => .next s
  | .write a w v :: rest => hostWrite a w v (setPending rest s)
  | .read a w :: rest => hostRead a w (setPending rest s)
  | .wait :: rest => hostPoll rest s

end Sys2Proof.Machine
end

