-- ==== Sys2Proof/Machine/Operands.lean ====
section
/-! DEFINITION. Operand assembly (30_encoding.md R71): a command reads its inputs from LATCH only, nothing sign-extended or scaled. -/

namespace Sys2Proof.Machine

/-- A Block, Key or State operand, `LATCH.a[15:0]`. -/
def operandA (s : State) : Block := s.latch.a

/-- A Block, Key or State operand, `LATCH.b[15:0]`. -/
def operandB (s : State) : Block := s.latch.b

/-- A Nibble operand, `LATCH.a[3:0]`; bits 15 to 4 are ignored. -/
def nibbleA (s : State) : Nibble := s.latch.a.extractLsb' 0 4

/-- A Nibble operand, or the mask operand of SUBNIBD and INVSUBNIBD, `LATCH.b[3:0]`. -/
def nibbleB (s : State) : Nibble := s.latch.b.extractLsb' 0 4

/-- The enhanced-mask override, `LATCH.ctrl`. -/
def operandForce0 (s : State) : Bool := s.latch.ctrl

/-- The trial count, `LATCH.trials`, all 32 bits. -/
def operandTrials (s : State) : Nat := s.latch.trials.toNat

/-- The seed, `LATCH.seed`. -/
def operandSeed (s : State) : BusWord := s.latch.seed

end Sys2Proof.Machine
end

