-- ==== Sys2Proof/Machine/Tables.lean ====
section
/-! DEFINITION. The substitution tables (40_field_and_tables.md section 2) and the commands SBOXF and SBOXI. A meaning that depends on
the parameters takes them as an argument in its `Under` form; the command runs it under `Config.params`. -/

namespace Sys2Proof.Machine

/-- `SBOX[x]` (R103, R104). -/
def sboxAt (sb : Sbox) (x : Nibble) : Nibble := sb x

/-- `SBOX_INV[y]` (R103, R104). -/
def sboxInvAt (sb : Sbox) (y : Nibble) : Nibble := sb.symm y

/-- The default SBOX entries, indexed 0 to F (R11, R103), used by the spec's derived vectors. PRESUMED from general knowledge by the
spec itself; no command reads it (log 6). -/
def defaultSboxTable : List Nibble := [0x9, 0x4, 0xA, 0xB, 0xD, 0x1, 0x8, 0x5, 0x6, 0x2, 0x0, 0x3, 0xC, 0xE, 0xF, 0x7]

/-- SBOXF under given parameters (R106). -/
def execSboxfUnder (P : Params) (s : State) : Outcome := .next (completeWithNibble (sboxAt P.sbox (nibbleA s)) s)

/-- SBOXF (R106). -/
def execSboxf (s : State) : Outcome := execSboxfUnder Config.params s

/-- SBOXI under given parameters (R107). -/
def execSboxiUnder (P : Params) (s : State) : Outcome := .next (completeWithNibble (sboxInvAt P.sbox (nibbleA s)) s)

/-- SBOXI (R107). -/
def execSboxi (s : State) : Outcome := execSboxiUnder Config.params s

end Sys2Proof.Machine
end

