-- ==== Sys2Proof/Machine/KeySchedule.lean ====
section
/-! DEFINITION. The key schedule (41_state_and_keyschedule.md section 3) and its command KEYEXP. -/

namespace Sys2Proof.Machine

/-- A Round Key Triple (10_state.md R23). -/
structure RoundKeys where
  k0 : Block
  k1 : Block
  k2 : Block
deriving DecidableEq, Repr

/-- RCON1 (R126). -/
def rcon1 : KeyWord := 0x80

/-- RCON2 (R126). -/
def rcon2 : KeyWord := 0x30

/-- `rotNib(w)` (R124). -/
def rotNib (w : KeyWord) : KeyWord := w.extractLsb' 0 4 ++ w.extractLsb' 4 4

/-- `subNibByte(w)` (R125). -/
def subNibByte (sb : Sbox) (w : KeyWord) : KeyWord := sboxAt sb (w.extractLsb' 4 4) ++ sboxAt sb (w.extractLsb' 0 4)

/-- `expand(key)` (R127); `w0` is the high byte (92_eei_decisions.md D33). -/
def expandKey (sb : Sbox) (key : Block) : RoundKeys :=
  let w0 : KeyWord := key.extractLsb' 8 8
  let w1 : KeyWord := key.extractLsb' 0 8
  let w2 := w0 ^^^ (subNibByte sb (rotNib w1) ^^^ rcon1)
  let w3 := w2 ^^^ w1
  let w4 := w2 ^^^ (subNibByte sb (rotNib w3) ^^^ rcon2)
  let w5 := w4 ^^^ w3
  { k0 := w0 ++ w1, k1 := w2 ++ w3, k2 := w4 ++ w5 }

/-- KEYEXP under given parameters (R130). -/
def execKeyexpUnder (P : Params) (s : State) : Outcome :=
  let ks := expandKey P.sbox (operandA s)
  .next (completeWithKeys ks.k0 ks.k1 ks.k2 s)

/-- KEYEXP (R130). -/
def execKeyexp (s : State) : Outcome := execKeyexpUnder Config.params s

end Sys2Proof.Machine
end

