-- ==== Sys2Proof/Machine/Field.lean ====
section
/-! DEFINITION. GF(2^4) arithmetic (40_field_and_tables.md section 1) and its command GFMUL. -/

namespace Sys2Proof.Machine

/-- The reduction constant 0b0011 of x^4 + x + 1 (R101). -/
def reductionConstant : Nibble := 0b0011

/-- One step of the shifted multiplicand: shift left, and reduce when bit 3 was carried out (R101, 90_conflicts.md C7). -/
def shiftReduce (x : Nibble) : Nibble := if x.getLsbD 3 then (x <<< 1) ^^^ reductionConstant else x <<< 1

/-- `n` rounds of R101's loop, with product `p`, multiplicand `x` and multiplier `y`. -/
def multiplyLoop (n : Nat) (p x y : Nibble) : Nibble :=
  match n with
  | 0 => p
  | n + 1 => multiplyLoop n (if y.getLsbD 0 then p ^^^ x else p) (shiftReduce x) (y >>> 1)

/-- `multiply(a, b)` in GF(2^4) (R100, R101). -/
def multiply (a b : Nibble) : Nibble := multiplyLoop 4 0 a b

/-- GFMUL (R105). -/
def execGfmul (s : State) : Outcome := .next (completeWithNibble (multiply (nibbleA s) (nibbleB s)) s)

end Sys2Proof.Machine
end

