-- ==== Sys2Proof/Machine/Layout.lean ====
section
/-! DEFINITION. The 2x2 nibble state (10_state.md R22, 41_state_and_keyschedule.md section 1), the round-key mask (section 2), and the
commands XORST and RKMASK. -/

namespace Sys2Proof.Machine

/-- The row-major 2x2 nibble matrix `[[n00, n01], [n10, n11]]` (R22); the layout is the source's, not the textbook's
(90_conflicts.md C2). -/
structure NibbleMatrix where
  n00 : Nibble
  n01 : Nibble
  n10 : Nibble
  n11 : Nibble
deriving DecidableEq, Repr

/-- `toState(v)` (R120). -/
def toMatrix (v : Block) : NibbleMatrix :=
  { n00 := v.extractLsb' 12 4, n01 := v.extractLsb' 8 4, n10 := v.extractLsb' 4 4, n11 := v.extractLsb' 0 4 }

/-- `fromState(S)` (R121). -/
def fromMatrix (m : NibbleMatrix) : Block := m.n00 ++ m.n01 ++ m.n10 ++ m.n11

/-- A function applied to each of the four nibbles independently. -/
def mapMatrix (f : Nibble → Nibble) (m : NibbleMatrix) : NibbleMatrix :=
  { n00 := f m.n00, n01 := f m.n01, n10 := f m.n10, n11 := f m.n11 }

/-- `xorState(A, B)`, elementwise (R122). -/
def xorMatrix (x y : NibbleMatrix) : NibbleMatrix :=
  { n00 := x.n00 ^^^ y.n00, n01 := x.n01 ^^^ y.n01, n10 := x.n10 ^^^ y.n10, n11 := x.n11 ^^^ y.n11 }

/-- `mask(K)`, the XOR-fold of the four nibbles (R123). -/
def roundKeyMask (k : Block) : Nibble :=
  k.extractLsb' 12 4 ^^^ k.extractLsb' 8 4 ^^^ k.extractLsb' 4 4 ^^^ k.extractLsb' 0 4

/-- XORST (R128). -/
def execXorst (s : State) : Outcome :=
  .next (completeWithResult (fromMatrix (xorMatrix (toMatrix (operandA s)) (toMatrix (operandB s)))) s)

/-- RKMASK (R129). CTRL.FORCE_MASK_ZERO does not affect it. -/
def execRkmask (s : State) : Outcome := .next (completeWithNibble (roundKeyMask (operandA s)) s)

end Sys2Proof.Machine
end

