-- ==== Sys2Proof/Machine/RoundTransforms.lean ====
section
/-! DEFINITION. The round transformations (42_round_transforms.md) and their eight commands. -/

namespace Sys2Proof.Machine

/-- `subNib(S)` (R140). -/
def subNib (sb : Sbox) (m : NibbleMatrix) : NibbleMatrix := mapMatrix (sboxAt sb) m

/-- `subNibDynamic(S, k)` with mask `k` (R141). -/
def subNibDynamic (sb : Sbox) (m : NibbleMatrix) (k : Nibble) : NibbleMatrix := mapMatrix (fun x => sboxAt sb (x ^^^ k) ^^^ k) m

/-- `invSubNib(S)` (R142). -/
def invSubNib (sb : Sbox) (m : NibbleMatrix) : NibbleMatrix := mapMatrix (sboxInvAt sb) m

/-- `invSubNibDynamic(S, k)` with mask `k` (R143, 90_conflicts.md C3). -/
def invSubNibDynamic (sb : Sbox) (m : NibbleMatrix) (k : Nibble) : NibbleMatrix :=
  mapMatrix (fun y => sboxInvAt sb (y ^^^ k) ^^^ k) m

/-- `shiftRows(S)`, which is its own inverse (R144). -/
def shiftRows (m : NibbleMatrix) : NibbleMatrix := { m with n10 := m.n11, n11 := m.n10 }

/-- The matrix `[[p, q], [q, p]]` over GF(2^4) applied to each column (R145, R146). -/
def mixWith (p q : Nibble) (m : NibbleMatrix) : NibbleMatrix :=
  { n00 := multiply p m.n00 ^^^ multiply q m.n10
    n01 := multiply p m.n01 ^^^ multiply q m.n11
    n10 := multiply q m.n00 ^^^ multiply p m.n10
    n11 := multiply q m.n01 ^^^ multiply p m.n11 }

/-- `mixColumns(S)`, the matrix `[[1, 4], [4, 1]]` (R145). -/
def mixColumns (m : NibbleMatrix) : NibbleMatrix := mixWith 1 4 m

/-- `invMixColumns(S)`, the matrix `[[9, 2], [2, 9]]` (R146). -/
def invMixColumns (m : NibbleMatrix) : NibbleMatrix := mixWith 9 2 m

/-- SUBNIB under given parameters (R147). -/
def execSubnibUnder (P : Params) (s : State) : Outcome :=
  .next (completeWithResult (fromMatrix (subNib P.sbox (toMatrix (operandA s)))) s)

/-- SUBNIB (R147). -/
def execSubnib (s : State) : Outcome := execSubnibUnder Config.params s

/-- INVSUBNIB under given parameters (R148). -/
def execInvsubnibUnder (P : Params) (s : State) : Outcome :=
  .next (completeWithResult (fromMatrix (invSubNib P.sbox (toMatrix (operandA s)))) s)

/-- INVSUBNIB (R148). -/
def execInvsubnib (s : State) : Outcome := execInvsubnibUnder Config.params s

/-- SUBNIBD under given parameters (R149): the mask is explicit and CTRL.FORCE_MASK_ZERO does not affect it. -/
def execSubnibdUnder (P : Params) (s : State) : Outcome :=
  .next (completeWithResult (fromMatrix (subNibDynamic P.sbox (toMatrix (operandA s)) (nibbleB s))) s)

/-- SUBNIBD (R149). -/
def execSubnibd (s : State) : Outcome := execSubnibdUnder Config.params s

/-- INVSUBNIBD under given parameters (R150). -/
def execInvsubnibdUnder (P : Params) (s : State) : Outcome :=
  .next (completeWithResult (fromMatrix (invSubNibDynamic P.sbox (toMatrix (operandA s)) (nibbleB s))) s)

/-- INVSUBNIBD (R150). -/
def execInvsubnibd (s : State) : Outcome := execInvsubnibdUnder Config.params s

/-- SHROWS (R151). -/
def execShrows (s : State) : Outcome := .next (completeWithResult (fromMatrix (shiftRows (toMatrix (operandA s)))) s)

/-- INVSHROWS (R152): the same function as SHROWS. -/
def execInvshrows (s : State) : Outcome := .next (completeWithResult (fromMatrix (shiftRows (toMatrix (operandA s)))) s)

/-- MIXCOL (R153). -/
def execMixcol (s : State) : Outcome := .next (completeWithResult (fromMatrix (mixColumns (toMatrix (operandA s)))) s)

/-- INVMIXCOL (R154). -/
def execInvmixcol (s : State) : Outcome :=
  .next (completeWithResult (fromMatrix (invMixColumns (toMatrix (operandA s)))) s)

end Sys2Proof.Machine
end

