-- ==== Sys2Proof/Machine/Cipher.lean ====
section
/-! DEFINITION. The cipher pipeline (43_cipher_pipeline.md) and the commands ENC.B, DEC.B, ENC.E, DEC.E. -/

namespace Sys2Proof.Machine

/-- The masks (m1, m2) of the enhanced variant, recomputed from the key on every call (R171). -/
def enhancedMasks (sb : Sbox) (key : Block) (force0 : Bool) : Nibble × Nibble :=
  if force0 then (0, 0) else (roundKeyMask (expandKey sb key).k1, roundKeyMask (expandKey sb key).k2)

/-- `SN(s, m)` of R172: the substitution of a variant. -/
def substitute (sb : Sbox) (v : Variant) (m : NibbleMatrix) (k : Nibble) : NibbleMatrix :=
  match v with
  | .baseline => subNib sb m
  | .enhanced => subNibDynamic sb m k

/-- `ISN(s, m)` of R173: the inverse substitution of a variant. -/
def invSubstitute (sb : Sbox) (v : Variant) (m : NibbleMatrix) (k : Nibble) : NibbleMatrix :=
  match v with
  | .baseline => invSubNib sb m
  | .enhanced => invSubNibDynamic sb m k

/-- `Encrypt(variant, p, key, force0)` (R172). The baseline uses no mask and ignores `force0` (R171). -/
def encrypt (sb : Sbox) (v : Variant) (p key : Block) (force0 : Bool) : Block :=
  let ks := expandKey sb key
  let ms := enhancedMasks sb key force0
  let whitened := xorMatrix (toMatrix p) (toMatrix ks.k0)
  let round1 := xorMatrix (mixColumns (shiftRows (substitute sb v whitened ms.1))) (toMatrix ks.k1)
  let round2 := xorMatrix (shiftRows (substitute sb v round1 ms.2)) (toMatrix ks.k2)
  fromMatrix round2

/-- `Decrypt(variant, c, key, force0)` (R173). -/
def decrypt (sb : Sbox) (v : Variant) (c key : Block) (force0 : Bool) : Block :=
  let ks := expandKey sb key
  let ms := enhancedMasks sb key force0
  let unwhitened := xorMatrix (toMatrix c) (toMatrix ks.k2)
  let undone2 := xorMatrix (invSubstitute sb v (shiftRows unwhitened) ms.2) (toMatrix ks.k1)
  let undone1 := xorMatrix (invSubstitute sb v (shiftRows (invMixColumns undone2)) ms.1) (toMatrix ks.k0)
  fromMatrix undone1

/-- ENC.B under given parameters (R174): LATCH.ctrl is ignored. -/
def execEncBUnder (P : Params) (s : State) : Outcome :=
  .next (completeWithResult (encrypt P.sbox .baseline (operandA s) (operandB s) false) s)

/-- ENC.B (R174). -/
def execEncB (s : State) : Outcome := execEncBUnder Config.params s

/-- DEC.B under given parameters (R175): LATCH.ctrl is ignored. -/
def execDecBUnder (P : Params) (s : State) : Outcome :=
  .next (completeWithResult (decrypt P.sbox .baseline (operandA s) (operandB s) false) s)

/-- DEC.B (R175). -/
def execDecB (s : State) : Outcome := execDecBUnder Config.params s

/-- ENC.E under given parameters (R176). -/
def execEncEUnder (P : Params) (s : State) : Outcome :=
  .next (completeWithResult (encrypt P.sbox .enhanced (operandA s) (operandB s) (operandForce0 s)) s)

/-- ENC.E (R176). -/
def execEncE (s : State) : Outcome := execEncEUnder Config.params s

/-- DEC.E under given parameters (R177). -/
def execDecEUnder (P : Params) (s : State) : Outcome :=
  .next (completeWithResult (decrypt P.sbox .enhanced (operandA s) (operandB s) (operandForce0 s)) s)

/-- DEC.E (R177). -/
def execDecE (s : State) : Outcome := execDecEUnder Config.params s

end Sys2Proof.Machine
end

