-- ==== Sys2Proof/Machine/Harness.lean ====
section
/-! DEFINITION. The diffusion-evaluation harness (44_harness.md) and the commands AVAL.PT and AVAL.KEY. -/

namespace Sys2Proof.Machine

/-- The result of one trial, `rec[i]` of R194: the drawn plaintext, key and bit index before any flip, the experiment, and the
Hamming distances of the two variants. -/
structure TrialRecord where
  p : Block
  k : Block
  b : Nibble
  target : Experiment
  dB : Nat
  dE : Nat
deriving DecidableEq, Repr

/-- `flip(v, b)`: the bit of weight 2^b is inverted (R191). -/
def flipBit (v : Block) (b : Nibble) : Block := v ^^^ (1#16 <<< b.toNat)

/-- The number of 1 bits (00_scope.md R17). -/
def popcount (v : Block) : Nat := (List.range 16).countP (fun i => v.getLsbD i)

/-- `hd(x, y)`, the Hamming distance (R193). -/
def hammingDistance (x y : Block) : Nat := popcount (x ^^^ y)

/-- The perturbed (plaintext, key) pair of a draw (R194). -/
def perturb (x : Experiment) (d : Draw) : Block × Block :=
  match x with
  | .pt => (flipBit d.p d.b, d.k)
  | .key => (d.p, flipBit d.k d.b)

/-- The distance of one variant's two ciphertexts in a trial (R194). -/
def trialDistance (sb : Sbox) (v : Variant) (x : Experiment) (d : Draw) (force0 : Bool) : Nat :=
  hammingDistance (encrypt sb v d.p d.k force0) (encrypt sb v (perturb x d).1 (perturb x d).2 force0)

/-- `trial(exp, seed, i, force0)` (R192, R194): one draw serves both variants; the baseline runs with force0 = 0. -/
def trial (P : Params) (x : Experiment) (seed : BusWord) (force0 : Bool) (i : Nat) : TrialRecord :=
  let d := P.trialSource x seed i
  { p := d.p, k := d.k, b := d.b, target := x
    dB := trialDistance P.sbox .baseline x d false
    dE := trialDistance P.sbox .enhanced x d force0 }

/-- `Harness(exp, T, seed, force0)` (R194): the trials in order of their index. -/
def harness (P : Params) (x : Experiment) (t : Nat) (seed : BusWord) (force0 : Bool) : List TrialRecord :=
  (List.range t).map (trial P x seed force0)

/-- The TARGET bit of a record (10_state.md R43). -/
def targetBit (x : Experiment) : BusWord :=
  match x with
  | .pt => 0
  | .key => 1

/-- TREC word 0 of a record (R195). -/
def recordWord0 (r : TrialRecord) : BusWord := (r.k.setWidth 32 <<< 16) ||| r.p.setWidth 32

/-- TREC word 1 of a record (R195). -/
def recordWord1 (r : TrialRecord) : BusWord :=
  (BitVec.ofNat 32 r.dE <<< 16) ||| (BitVec.ofNat 32 r.dB <<< 8) ||| (targetBit r.target <<< 4) ||| r.b.setWidth 32

/-- The eight bytes of a record in TREC (20_memory.md R56). -/
def recordBytes (r : TrialRecord) : List Byte := wordBytes (recordWord0 r) ++ wordBytes (recordWord1 r)

/-- TREC after records 0 to T-1 are written; later records keep what they held (R195, 20_memory.md R57). -/
def writeRecords (m : Memory) (rs : List TrialRecord) : Memory := Memory.writeBytes m trecBase (rs.flatMap recordBytes)

/-- The least of a sequence of samples (R202); 0 of none, which no run has (R198). -/
def sampleMin (ds : List Nat) : Nat :=
  match ds with
  | [] => 0
  | d :: rest => rest.foldl Nat.min d

/-- The greatest of a sequence of samples (R202). -/
def sampleMax (ds : List Nat) : Nat := ds.foldl Nat.max 0

/-- The STAT registers of one variant for its sequence of samples (R199). -/
def statsOf (ds : List Nat) : Stats :=
  { count := BitVec.ofNat 32 ds.length
    sum := BitVec.ofNat 32 ds.sum
    sumsq := BitVec.ofNat 32 (ds.map (fun d => d * d)).sum
    min := BitVec.ofNat 5 (sampleMin ds)
    max := BitVec.ofNat 5 (sampleMax ds) }

/-- `check_trials(T)` (R198). -/
def checkTrials (P : Params) (t : Nat) : Option CmdError :=
  if t = 0 then some .trialsZero else if P.tMax < t then some .trialsRange else none

/-- The output writes of a successful harness command (R195, R196, R199): TREC, the STAT registers, LAST_EXP. -/
def writeHarness (x : Experiment) (rs : List TrialRecord) (s : State) : State :=
  { s with
    trec := writeRecords s.trec rs
    statB := statsOf (rs.map TrialRecord.dB)
    statE := statsOf (rs.map TrialRecord.dE)
    status := { s.status with lastExp := experimentCode x } }

/-- A harness command under given parameters: the trial-count check, the run, the writes, completion (R196, R197). -/
def runHarness (P : Params) (x : Experiment) (s : State) : State :=
  match checkTrials P (operandTrials s) with
  | some e => raiseCmdError e s
  | none => complete (writeHarness x (harness P x (operandTrials s) (operandSeed s) (operandForce0 s)) s)

/-- AVAL.PT under given parameters (R196). -/
def execAvalPtUnder (P : Params) (s : State) : Outcome := .next (runHarness P .pt s)

/-- AVAL.PT (R196). -/
def execAvalPt (s : State) : Outcome := execAvalPtUnder Config.params s

/-- AVAL.KEY under given parameters (R197). -/
def execAvalKeyUnder (P : Params) (s : State) : Outcome := .next (runHarness P .key s)

/-- AVAL.KEY (R197). -/
def execAvalKey (s : State) : Outcome := execAvalKeyUnder Config.params s

end Sys2Proof.Machine
end

