-- ==== Sys2Proof/Machine/Dispatch.lean ====
section
/-! DEFINITION. `perform` of the CORE step (30_encoding.md R78), one arm per command. -/

namespace Sys2Proof.Machine

def exec (i : Instr) (s : State) : Host.Outcome State Fault Refusal :=
  match i with
  | .gfmul => Sys2Proof.Machine.execGfmul s
  | .sboxf => Sys2Proof.Machine.execSboxf s
  | .sboxi => Sys2Proof.Machine.execSboxi s
  | .xorst => Sys2Proof.Machine.execXorst s
  | .rkmask => Sys2Proof.Machine.execRkmask s
  | .keyexp => Sys2Proof.Machine.execKeyexp s
  | .subnib => Sys2Proof.Machine.execSubnib s
  | .invsubnib => Sys2Proof.Machine.execInvsubnib s
  | .subnibd => Sys2Proof.Machine.execSubnibd s
  | .invsubnibd => Sys2Proof.Machine.execInvsubnibd s
  | .shrows => Sys2Proof.Machine.execShrows s
  | .invshrows => Sys2Proof.Machine.execInvshrows s
  | .mixcol => Sys2Proof.Machine.execMixcol s
  | .invmixcol => Sys2Proof.Machine.execInvmixcol s
  | .encB => Sys2Proof.Machine.execEncB s
  | .decB => Sys2Proof.Machine.execDecB s
  | .encE => Sys2Proof.Machine.execEncE s
  | .decE => Sys2Proof.Machine.execDecE s
  | .avalPt => Sys2Proof.Machine.execAvalPt s
  | .avalKey => Sys2Proof.Machine.execAvalKey s

end Sys2Proof.Machine
end

