-- ==== Sys2Proof/Machine/Agents.lean ====
section
/-! DEFINITION. The moves of the agents (00_scope.md R20) and of the reset input. -/

namespace Sys2Proof.Machine

/-- The CORE step (30_encoding.md R78): while BUSY, the latched command is decoded and performed whole, and completes; an illegal word
completes with ILLEGAL_CMD (60_exceptions.md R223). While idle CORE has no step and its turn passes. -/
def coreMove (s : State) : Outcome :=
  if s.status.busy then
    match decode s.latch.cmd with
    | some i => exec i s
    | none => .next (raiseCmdError .illegalCmd s)
  else .next s

/-- The move of a turn (log 2). -/
def turnMove (t : Turn) (s : State) : Outcome :=
  match t with
  | .host => hostMove s
  | .core => coreMove s
  | .reset => .next (resetCore s)

/-- Whose move it is when no turn is fixed: CORE's while a command is in flight, which is its weak fairness
(70_reset_and_hazards.md R259), HOST's else. DESIGN CHOICE (log 2). -/
def defaultTurn (s : State) : Turn := if s.status.busy then .core else .host

/-- One step: the next fixed turn, or the default one. -/
def machineMove (s : State) : Outcome :=
  match s.env.turns with
  | t :: ts => turnMove t (setTurns ts s)
  | [] => turnMove (defaultTurn s) s

/-- A command word placed so that the very next step performs it (log 3): it is issued as a host write to CMD issues it
(20_memory.md R59), and the next turn is CORE's. -/
def placeCommand (v : BusWord) (s : State) : State := setTurns (.core :: s.env.turns) (issue v s)

end Sys2Proof.Machine
end

