-- ==== Sys2Proof/Machine/HostSyntax.lean ====
section
/-! DEFINITION. The host program syntax (30_encoding.md R79) and the pseudo-instructions with their expansions (R80). -/

namespace Sys2Proof.Machine

/-- `WR <reg>, <value>` (R79). -/
def opWr (r : Register) (v : BusWord) : HostOp := .write (registerAddr r) .word v

/-- `RD <reg>` (R79). -/
def opRd (r : Register) : HostOp := .read (registerAddr r) .word

/-- `RD TREC[i].w0` (R79), for a record of the 17-bit host space, i < 8192. DESIGN CHOICE: for i ≥ 8192, where the spec names no record, the
address wraps to 17 bits (log 21). -/
def opRdTrec0 (i : Nat) : HostOp := .read (BitVec.ofNat 17 (trecWord0 i)) .word

/-- `RD TREC[i].w1` (R79), for i < 8192. DESIGN CHOICE: for i ≥ 8192 the address wraps to 17 bits, as in `opRdTrec0` (log 21). -/
def opRdTrec1 (i : Nat) : HostOp := .read (BitVec.ofNat 17 (trecWord1 i)) .word

/-- `CMD <mnemonic>` (R80). -/
def pseudoCmd (i : Instr) : List HostOp := [opWr .cmd (encode i)]

/-- `WAIT` (R80). -/
def pseudoWait : List HostOp := [.wait]

/-- `RUN <mnemonic>` (R80). -/
def pseudoRun (i : Instr) : List HostOp := pseudoCmd i ++ pseudoWait

/-- The encrypting command of a variant (R72, R73). -/
def encryptInstr (v : Variant) : Instr :=
  match v with
  | .baseline => .encB
  | .enhanced => .encE

/-- The decrypting command of a variant (R72, R73). -/
def decryptInstr (v : Variant) : Instr :=
  match v with
  | .baseline => .decB
  | .enhanced => .decE

/-- The command of an experiment (R72, R73). -/
def avalancheInstr (x : Experiment) : Instr :=
  match x with
  | .pt => .avalPt
  | .key => .avalKey

/-- `ENCRYPT.<v> p, k` (R80). -/
def pseudoEncrypt (v : Variant) (p k : BusWord) : List HostOp :=
  [opWr .opa p, opWr .opb k] ++ pseudoRun (encryptInstr v) ++ [opRd .result]

/-- `DECRYPT.<v> c, k` (R80). -/
def pseudoDecrypt (v : Variant) (c k : BusWord) : List HostOp :=
  [opWr .opa c, opWr .opb k] ++ pseudoRun (decryptInstr v) ++ [opRd .result]

/-- `AVALANCHE.<t> T, seed` (R80). -/
def pseudoAvalanche (x : Experiment) (t seed : BusWord) : List HostOp :=
  [opWr .trials t, opWr .seed seed] ++ pseudoRun (avalancheInstr x)

end Sys2Proof.Machine
end

