-- ==== Sys2Proof/Machine/Summary.lean ====
section
/-! DEFINITION. The summary statistics that a host computes from the STAT registers (44_harness.md R200, R201), exactly. The core holds
the integer accumulators; no register holds a mean or a standard deviation, so no step computes one. -/

namespace Sys2Proof.Machine

/-- The mean, SUM / COUNT (R200); none while the registers hold no run. -/
def meanOf (st : Stats) : Option Rat := if st.count = 0 then none else some ((st.sum.toNat : Rat) / (st.count.toNat : Rat))

/-- The number under the root of R201, an exact rational. SAMPLE is defined only for COUNT ≥ 2: with one sample it is undefined and has no
value here. -/
def stddevSquared (kind : StddevKind) (st : Stats) : Option Rat :=
  let n : Rat := st.count.toNat
  let spread : Rat := n * st.sumsq.toNat - (st.sum.toNat : Rat) * st.sum.toNat
  match kind with
  | .population => if st.count = 0 then none else some (spread / (n * n))
  | .sample => if st.count.toNat < 2 then none else some (spread / (n * (n - 1)))

/-- The number under the root of R201 under the implementation's STDDEV_KIND (00_scope.md R14). -/
def stddevSquaredOf (P : Params) (st : Stats) : Option Rat := stddevSquared P.stddevKind st

/-- The standard deviation (R201), the square root of `stddevSquared`, an exact real number. DESIGN CHOICE: none where the number under
the root is negative, which no run's statistics make it, and none before any run (log 11). -/
noncomputable def stddev (kind : StddevKind) (st : Stats) : Option ℝ :=
  match stddevSquared kind st with
  | some q => if 0 ≤ q then some (Real.sqrt q) else none
  | none => none

/-- The standard deviation under the implementation's STDDEV_KIND (00_scope.md R14). -/
noncomputable def stddevOf (P : Params) (st : Stats) : Option ℝ := stddev P.stddevKind st

end Sys2Proof.Machine
end

