-- ==== Sys2Proof/Safety.lean ====
section
/-! DEFINITION. What counts as a good state of the core, and the relations between states, in the terms the statements use. -/

namespace Sys2Proof.Machine

/-- STATUS as its rules say it can be: DONE and BUSY never together (10_state.md R29), ERRCODE nonzero exactly when ERR = 1 (R30) and a
code that is raised (60_exceptions.md R222), LAST_EXP never 3 (R27), an error only of a completed command (R30). -/
abbrev Status.Legal (st : Status) : Prop :=
  ¬(st.busy = true ∧ st.done = true) ∧ (st.errcode ≠ 0 ↔ st.err = true) ∧ st.errcode.toNat ≤ 3 ∧ st.lastExp ≠ 3 ∧
    (st.err = true → st.done = true)

/-- A command in flight is the word CMD holds: a CMD write while busy is ignored (10_state.md R26, R45). -/
abbrev CommandHeld (s : State) : Prop := s.status.busy = true → s.latch.cmd = s.cmd

/-- The bits of TREC word 1 that hold no field (10_state.md R43). -/
def recordReserved : BusWord := 0xFFE0E0E0

/-- Every written TREC word 1 has its other bits 0 and distances in [0, 16] (10_state.md R43, 44_harness.md R202). -/
def RecordWordsLegal (m : Memory) : Prop :=
  ∀ i w, Memory.readWord m (trecWord1 i) = some w →
    w &&& recordReserved = 0 ∧ (w.extractLsb' 8 5).toNat ≤ 16 ∧ (w.extractLsb' 16 5).toNat ≤ 16

/-- A record is written as a whole or not at all (20_memory.md R57, R63). -/
def RecordsWhole (m : Memory) : Prop :=
  ∀ i j, j < 8 → ((Memory.readByte m (trecWord0 i + j)).isSome ↔ (Memory.readByte m (trecWord0 i)).isSome)

/-- TREC in its canonical form, inside its window of T_MAX records (20_memory.md R56), with whole and legal records. -/
def TrecLegal (tMax : Nat) (m : Memory) : Prop :=
  Memory.wf m ∧ (∀ c ∈ m, trecBase ≤ c.1 ∧ c.1 < trecBase + 8 * tMax) ∧ RecordsWhole m ∧ RecordWordsLegal m

/-- TREC[0] to TREC[n-1] hold the given records (44_harness.md R195). -/
def RecordsHeld (m : Memory) (rs : List TrialRecord) : Prop :=
  ∀ i (h : i < rs.length), Memory.readWord m (trecWord0 i) = some (recordWord0 rs[i]) ∧
    Memory.readWord m (trecWord1 i) = some (recordWord1 rs[i])

/-- STATUS.LAST_EXP names the experiment whose outputs are held (10_state.md R31): none since reset, or one run of that experiment whose
records stand in TREC and whose statistics stand in the STAT registers. -/
def OutputsHeld (P : Params) (s : State) : Prop :=
  (s.status.lastExp = 0 → s.trec = [] ∧ s.statB = Stats.reset ∧ s.statE = Stats.reset) ∧
  ∀ x, s.status.lastExp = experimentCode x → ∃ t seed force0,
    1 ≤ t ∧ t ≤ P.tMax ∧ RecordsHeld s.trec (harness P x t seed force0) ∧
    s.statB = statsOf ((harness P x t seed force0).map TrialRecord.dB) ∧
    s.statE = statsOf ((harness P x t seed force0).map TrialRecord.dE)

/-- A good state of this machine. -/
def Good (s : State) : Prop :=
  s.status.Legal ∧ CommandHeld s ∧ TrecLegal Config.params.tMax s.trec ∧ OutputsHeld Config.params s

/-- The core's part of a state is unchanged: every register, TREC and LATCH, whatever the environment records. -/
def SameCore (s t : State) : Prop := t = { s with env := t.env }

/-- The 17 commands whose success writes RESULT (10_state.md R35). -/
def resultCommands : List Instr :=
  [.gfmul, .sboxf, .sboxi, .xorst, .rkmask, .subnib, .invsubnib, .subnibd, .invsubnibd, .shrows, .invshrows, .mixcol, .invmixcol,
    .encB, .decB, .encE, .decE]

/-- The outputs of the core: RESULT, RK0 to RK2, the STAT registers, TREC and LAST_EXP are the same in both states. -/
def SameOutputs (s t : State) : Prop :=
  t.result = s.result ∧ t.rk0 = s.rk0 ∧ t.rk1 = s.rk1 ∧ t.rk2 = s.rk2 ∧ t.statB = s.statB ∧ t.statE = s.statE ∧
    t.trec = s.trec ∧ t.status.lastExp = s.status.lastExp

/-- An aligned address that R52 marks unmapped, with `tMax` trial records (20_memory.md R52, R53). -/
def Unmapped (tMax : Nat) (a : HostAddr) : Prop :=
  a.toNat = 0x2C ∨ (0x50 ≤ a.toNat ∧ a.toNat ≤ 0xFFFC) ∨ 0x10000 + 8 * tMax ≤ a.toNat

end Sys2Proof.Machine
end

