-- ==== Sys2Proof/Certificates/Slice0/Obligations.lean ====
section
/-! DEFINITION. The statements for the provers, from the numbered rules of spec/. A state is any state, also one no run reaches; a
statement about the parameters is about every well-formed implementation, since `Config.params` is opaque. An equation of whole states
says also that a command that completes leaves LATCH as it was: that clause is the model's choice (log 4) and no rule's, since the spec
lets LATCH hold any value while BUSY = 0. -/

open Sys2Proof Sys2Proof.Machine Polynomial

/-! ## Encoding -/

/-- A word of every family, written out from its row of the opcode map, decodes to its command (30_encoding.md R73). -/
def Obligations.SpelledOutWordsDecode : Prop :=
  decode 0b00000000000000000000000000000001#32 = some .gfmul ∧
  decode 0b00000000000000000000000000000011#32 = some .sboxi ∧
  decode 0b00000000000000000000000000000110#32 = some .keyexp ∧
  decode 0b00000000000000000000000000001011#32 = some .invsubnibd ∧
  decode 0b00000000000000000000000000010010#32 = some .encE ∧
  decode 0b00000000000000000000000000100001#32 = some .avalKey ∧
  decode 0b00000000000000000000000000000111#32 = none

/-- Decode is the total function of R76: Illegal when bits 31 to 8 are not 0, the opcode map else, Illegal for an unlisted opcode. -/
def Obligations.DecoderFollowsOpcodeMap : Prop :=
  ∀ w : BusWord,
    decode w =
      if w.extractLsb' 8 24 ≠ 0 then none
      else
        List.lookup (w.extractLsb' 0 8)
          [(0x01#8, Instr.gfmul), (0x02#8, .sboxf), (0x03#8, .sboxi), (0x04#8, .xorst), (0x05#8, .rkmask), (0x06#8, .keyexp),
            (0x08#8, .subnib), (0x09#8, .invsubnib), (0x0A#8, .subnibd), (0x0B#8, .invsubnibd), (0x0C#8, .shrows),
            (0x0D#8, .invshrows), (0x0E#8, .mixcol), (0x0F#8, .invmixcol), (0x10#8, .encB), (0x11#8, .decB), (0x12#8, .encE),
            (0x13#8, .decE), (0x20#8, .avalPt), (0x21#8, .avalKey)]

/-- Decode and encode agree both ways: every command is read back from its word, and a word that decodes to a command is that command's
word, so no bit of a legal word is dropped. -/
def Obligations.DecodeInvertsEncode : Prop :=
  (∀ i : Instr, i.wf = true → decode (encode i) = some i) ∧ ∀ (w : BusWord) (i : Instr), decode w = some i → w = encode i

/-- Exactly the words R74 calls illegal are refused by the decoder, and such a command completes with ILLEGAL_CMD and writes nothing but
STATUS (30_encoding.md R74, 60_exceptions.md R223). -/
def Obligations.IllegalWordsReportError : Prop :=
  (∀ w : BusWord,
    decode w = none ↔
      w.extractLsb' 8 24 ≠ 0 ∨ w.extractLsb' 0 8 = 0x00 ∨ w.extractLsb' 0 8 = 0x07 ∨
        (0x14 ≤ (w.extractLsb' 0 8).toNat ∧ (w.extractLsb' 0 8).toNat ≤ 0x1F) ∨ 0x22 ≤ (w.extractLsb' 0 8).toNat) ∧
  ∀ s : State, s.status.busy = true → decode s.latch.cmd = none →
    coreMove s = .next
      { s with status := { busy := false, done := true, err := true, errcode := 1, lastExp := s.status.lastExp } }

/-- The structure of OPCODE (30_encoding.md R72): the group in bits 7 to 4, direction and variant in group 1, flip target in group 2, and
the bits that must be 0. -/
def Obligations.OpcodeFieldStructure : Prop :=
  (∀ i : Instr, (opcode i).extractLsb' 4 4 =
    match i with
    | .encB | .decB | .encE | .decE => 1#4
    | .avalPt | .avalKey => 2#4
    | _ => 0#4) ∧
  (∀ v : Variant,
    (opcode (encryptInstr v)).getLsbD 0 = false ∧ (opcode (decryptInstr v)).getLsbD 0 = true ∧
    (opcode (encryptInstr v)).getLsbD 1 = decide (v = .enhanced) ∧
    (opcode (decryptInstr v)).getLsbD 1 = decide (v = .enhanced)) ∧
  (∀ x : Experiment, (opcode (avalancheInstr x)).getLsbD 0 = decide (x = .key)) ∧
  ∀ i : Instr,
    ((opcode i).extractLsb' 4 4 = 1#4 → (opcode i).extractLsb' 2 2 = 0#2) ∧
    ((opcode i).extractLsb' 4 4 = 2#4 → (opcode i).extractLsb' 1 3 = 0#3)

/-! ## Steps and agents -/

/-- When it is CORE's move and a command is in flight whose word decodes to `i`, the step is `exec` of `i`: with no turn fixed (the
model's choice, log 2), and with a CORE turn first, which is used up. -/
def Obligations.CoreTurnRunsDecodedCommand : Prop :=
  ∀ (s : State) (i : Instr), i.wf = true → s.status.busy = true → decode s.latch.cmd = some i →
    (s.env.turns = [] → step s = exec i s) ∧
    ∀ ts, s.env.turns = .core :: ts → step s = exec i { s with env := { s.env with turns := ts } }

/-- A HOST step makes the host's next access (20_memory.md R63): in every state with a HOST turn next, or with no turn fixed and the core
idle, the step is the write, the read or the STATUS read of WAIT that is pending first, with the turn used up and the rest still to come.
The turns, WAIT as one read a step, and the step that changes nothing when nothing is pending are the model's choices (logs 2, 16, 14). -/
def Obligations.HostTurnMakesPendingAccess : Prop :=
  ∀ (s : State) (ts : List Turn),
    s.env.turns = .host :: ts ∨ (s.env.turns = [] ∧ ts = [] ∧ s.status.busy = false) →
    (∀ a w v rest, s.env.pending = .write a w v :: rest →
      step s = hostWrite a w v { s with env := { s.env with turns := ts, pending := rest } }) ∧
    (∀ a w rest, s.env.pending = .read a w :: rest →
      step s = hostRead a w { s with env := { s.env with turns := ts, pending := rest } }) ∧
    (∀ rest, s.env.pending = .wait :: rest →
      step s = hostRead 0x00004 .word { s with env :=
        { s.env with turns := ts, pending := if s.status.busy then .wait :: rest else rest } }) ∧
    (s.env.pending = [] → step s = .next { s with env := { s.env with turns := ts } })

/-- A command placed by `withFetchWord` (the model's choice, log 3) is issued as a CMD write issues it, and the very next step is `exec` of
it, in every state. -/
def Obligations.PlacedCommandRunsNext : Prop :=
  ∀ (s : State) (i : Instr),
    step (s.withFetchWord 32 (encode i).toNat) =
      exec i { s with
        cmd := encode i
        latch := { cmd := encode i, a := s.opa, b := s.opb, ctrl := s.ctrl, trials := s.trials, seed := s.seed }
        status := { busy := true, done := false, err := false, errcode := 0, lastExp := s.status.lastExp } }

/-- The CORE step (30_encoding.md R78). While a command is in flight, an illegal word ends with ILLEGAL_CMD, and a legal one is performed
and answers a next state that has BUSY 0 and DONE 1, with ERR and ERRCODE as they were, or else, on an error, with exactly BUSY, DONE, ERR
and ERRCODE written (60_exceptions.md R227). That CORE's turn while idle leaves the state as it is, is the model's choice (log 14). -/
def Obligations.CoreStepPerformsAndCompletes : Prop :=
  ∀ s : State,
    (s.status.busy = false → coreMove s = .next s) ∧
    (s.status.busy = true → decode s.latch.cmd = none →
      coreMove s = .next
        { s with status := { busy := false, done := true, err := true, errcode := 1, lastExp := s.status.lastExp } }) ∧
    ∀ i, s.status.busy = true → decode s.latch.cmd = some i →
      ∃ t, coreMove s = .next t ∧ exec i s = .next t ∧ t.status.busy = false ∧ t.status.done = true ∧ t.env = s.env ∧
        ((t.status.err = s.status.err ∧ t.status.errcode = s.status.errcode) ∨
          ∃ c, c ≠ 0 ∧ t =
            { s with status := { busy := false, done := true, err := true, errcode := c, lastExp := s.status.lastExp } })

/-- Every command in flight completes with its CORE step, and a WAIT loop ends (70_reset_and_hazards.md R259): whatever turns are fixed
ahead, in any number and of any agent, the run answers a next state in which WAIT is over and BUSY is 0. The bound of two steps past the
turns fixed ahead is no rule's: it rests on the model's choice of the order after them (log 2) and on WAIT reading STATUS once a step
(log 16). -/
def Obligations.WaitLoopEnds : Prop :=
  (∀ s : State, s.status.busy = true →
    ∃ t, coreMove s = .next t ∧ t.status.busy = false ∧ t.status.done = true) ∧
  ∀ (s : State) (rest : List HostOp), s.env.pending = .wait :: rest →
    ∃ n t, n ≤ s.env.turns.length + 2 ∧ Host.Core.run Sys2Proof.core n s = .next t ∧ t.env.pending = rest ∧
      t.status.busy = false

/-! ## The commands -/

/-- GFMUL (40_field_and_tables.md R105): RESULT is the product of the low nibbles, zero-extended; nothing else but STATUS is written. -/
def Obligations.GfmulResult : Prop :=
  decode 0x00000001#32 = some .gfmul ∧
  (∀ s : State, exec .gfmul s = .next
    { s with
      result := (multiply (s.latch.a.extractLsb' 0 4) (s.latch.b.extractLsb' 0 4)).setWidth 16
      status := { s.status with busy := false, done := true } }) ∧
  (∀ a : Nibble, multiply a 0 = 0 ∧ multiply 0 a = 0 ∧ multiply a 1 = a ∧ (a.setWidth 16).extractLsb' 4 12 = 0#12) ∧
  multiply 4 4 = 3

/-- SBOXF and SBOXI (R106, R107): RESULT is the table entry of the low nibble, zero-extended, for every SBOX; SBOXI undoes SBOXF. -/
def Obligations.SboxCommandResults : Prop :=
  decode 0x00000002#32 = some .sboxf ∧ decode 0x00000003#32 = some .sboxi ∧
  (∀ s : State,
    exec .sboxf s = .next
      { s with
        result := (Config.params.sbox (s.latch.a.extractLsb' 0 4)).setWidth 16
        status := { s.status with busy := false, done := true } } ∧
    exec .sboxi s = .next
      { s with
        result := (Config.params.sbox.symm (s.latch.a.extractLsb' 0 4)).setWidth 16
        status := { s.status with busy := false, done := true } }) ∧
  (∀ (sb : Sbox) (x : Nibble), sboxInvAt sb (sboxAt sb x) = x ∧ ((sboxAt sb x).setWidth 16).extractLsb' 4 12 = 0#12) ∧
  ∀ sb, Sbox.ofTable defaultSboxTable = .ok sb → sboxAt sb 0 = 9 ∧ sboxInvAt sb 9 = 0

/-- XORST (41_state_and_keyschedule.md R128): RESULT is the XOR of the two operands. -/
def Obligations.XorstResult : Prop :=
  decode 0x00000004#32 = some .xorst ∧
  (∀ s : State, exec .xorst s = .next
    { s with result := s.latch.a ^^^ s.latch.b, status := { s.status with busy := false, done := true } }) ∧
  ∀ u v : Block,
    fromMatrix (xorMatrix (toMatrix u) (toMatrix u)) = 0 ∧ fromMatrix (xorMatrix (toMatrix u) (toMatrix 0)) = u ∧
    fromMatrix (xorMatrix (toMatrix u) (toMatrix v)) = u ^^^ v ∧
    fromMatrix (xorMatrix (toMatrix 0x1234) (toMatrix 0x3A94)) = 0x28A0

/-- RKMASK (R129): RESULT is the XOR of the operand's four nibbles, zero-extended; CTRL does not matter. -/
def Obligations.RkmaskResult : Prop :=
  decode 0x00000005#32 = some .rkmask ∧
  (∀ s : State, exec .rkmask s = .next
    { s with
      result := (s.latch.a.extractLsb' 12 4 ^^^ s.latch.a.extractLsb' 8 4 ^^^ s.latch.a.extractLsb' 4 4 ^^^
        s.latch.a.extractLsb' 0 4).setWidth 16
      status := { s.status with busy := false, done := true } }) ∧
  roundKeyMask 0x68FC = 0xD ∧ roundKeyMask 0x0000 = 0 ∧ roundKeyMask 0xFFFF = 0 ∧ roundKeyMask 0x1230 = 0 ∧
  ∀ k : Block, ((roundKeyMask k).setWidth 16).extractLsb' 4 12 = 0#12

/-- KEYEXP (R130): RK0 is the key, RK1 and RK2 the expansion's other round keys; RESULT is not written. -/
def Obligations.KeyexpResult : Prop :=
  decode 0x00000006#32 = some .keyexp ∧
  (∀ s : State, exec .keyexp s = .next
    { s with
      rk0 := s.latch.a
      rk1 := (expandKey Config.params.sbox s.latch.a).k1
      rk2 := (expandKey Config.params.sbox s.latch.a).k2
      status := { s.status with busy := false, done := true } }) ∧
  ∀ sb, Sbox.ofTable defaultSboxTable = .ok sb → expandKey sb 0x3A94 = { k0 := 0x3A94, k1 := 0x68FC, k2 := 0x9F63 }

/-- SUBNIB and INVSUBNIB (42_round_transforms.md R147, R148): SBOX, or SBOX_INV, of each nibble; the second undoes the first. -/
def Obligations.SubnibResults : Prop :=
  decode 0x00000008#32 = some .subnib ∧ decode 0x00000009#32 = some .invsubnib ∧
  (∀ s : State,
    exec .subnib s = .next
      { s with
        result := Config.params.sbox (s.latch.a.extractLsb' 12 4) ++ Config.params.sbox (s.latch.a.extractLsb' 8 4) ++
          Config.params.sbox (s.latch.a.extractLsb' 4 4) ++ Config.params.sbox (s.latch.a.extractLsb' 0 4)
        status := { s.status with busy := false, done := true } } ∧
    exec .invsubnib s = .next
      { s with
        result := Config.params.sbox.symm (s.latch.a.extractLsb' 12 4) ++ Config.params.sbox.symm (s.latch.a.extractLsb' 8 4) ++
          Config.params.sbox.symm (s.latch.a.extractLsb' 4 4) ++ Config.params.sbox.symm (s.latch.a.extractLsb' 0 4)
        status := { s.status with busy := false, done := true } }) ∧
  (∀ (sb : Sbox) (v : Block),
    fromMatrix (invSubNib sb (toMatrix (fromMatrix (subNib sb (toMatrix v))))) = v) ∧
  ∀ sb, Sbox.ofTable defaultSboxTable = .ok sb →
    fromMatrix (subNib sb (toMatrix 0x1234)) = 0x4ABD ∧ fromMatrix (invSubNib sb (toMatrix 0x4ABD)) = 0x1234

/-- SUBNIBD and INVSUBNIBD (R149, R150): the masked substitution of each nibble under the explicit mask OPB[3:0]; with mask 0 they give the
unmasked results; the second undoes the first under the same mask. -/
def Obligations.SubnibdResults : Prop :=
  decode 0x0000000A#32 = some .subnibd ∧ decode 0x0000000B#32 = some .invsubnibd ∧
  (∀ s : State,
    let m := s.latch.b.extractLsb' 0 4
    let f := fun x : Nibble => Config.params.sbox (x ^^^ m) ^^^ m
    let g := fun y : Nibble => Config.params.sbox.symm (y ^^^ m) ^^^ m
    exec .subnibd s = .next
      { s with
        result := f (s.latch.a.extractLsb' 12 4) ++ f (s.latch.a.extractLsb' 8 4) ++ f (s.latch.a.extractLsb' 4 4) ++
          f (s.latch.a.extractLsb' 0 4)
        status := { s.status with busy := false, done := true } } ∧
    exec .invsubnibd s = .next
      { s with
        result := g (s.latch.a.extractLsb' 12 4) ++ g (s.latch.a.extractLsb' 8 4) ++ g (s.latch.a.extractLsb' 4 4) ++
          g (s.latch.a.extractLsb' 0 4)
        status := { s.status with busy := false, done := true } } ∧
    (m = 0 → exec .subnibd s = exec .subnib s ∧ exec .invsubnibd s = exec .invsubnib s)) ∧
  (∀ (sb : Sbox) (v : Block) (k : Nibble),
    fromMatrix (invSubNibDynamic sb (toMatrix (fromMatrix (subNibDynamic sb (toMatrix v) k))) k) = v) ∧
  ∀ sb, Sbox.ofTable defaultSboxTable = .ok sb →
    fromMatrix (subNibDynamic sb (toMatrix 0x1234) 5) = 0x80D1 ∧ fromMatrix (invSubNibDynamic sb (toMatrix 0x80D1) 5) = 0x1234

/-- SHROWS and INVSHROWS (R151, R152): the two low nibbles are swapped, the top byte stays; both give the same for every input. -/
def Obligations.ShiftRowsResults : Prop :=
  decode 0x0000000C#32 = some .shrows ∧ decode 0x0000000D#32 = some .invshrows ∧
  (∀ s : State,
    exec .shrows s = .next
      { s with
        result := s.latch.a.extractLsb' 12 4 ++ s.latch.a.extractLsb' 8 4 ++ s.latch.a.extractLsb' 0 4 ++ s.latch.a.extractLsb' 4 4
        status := { s.status with busy := false, done := true } } ∧
    exec .invshrows s = exec .shrows s) ∧
  (∀ v : Block,
    (fromMatrix (shiftRows (toMatrix v))).extractLsb' 8 8 = v.extractLsb' 8 8 ∧
    (v.extractLsb' 0 4 = v.extractLsb' 4 4 → fromMatrix (shiftRows (toMatrix v)) = v)) ∧
  fromMatrix (shiftRows (toMatrix 0x1234)) = 0x1243 ∧ fromMatrix (shiftRows (toMatrix 0x1243)) = 0x1234

/-- MIXCOL and INVMIXCOL (R153, R154): the matrices over GF(2^4) on each column; linear, a nonzero column stays nonzero, a column with one
nonzero nibble gets two, and INVMIXCOL undoes MIXCOL for every value. -/
def Obligations.MixColumnsResults : Prop :=
  decode 0x0000000E#32 = some .mixcol ∧ decode 0x0000000F#32 = some .invmixcol ∧
  (∀ s : State,
    let n0 := s.latch.a.extractLsb' 12 4
    let n1 := s.latch.a.extractLsb' 8 4
    let n2 := s.latch.a.extractLsb' 4 4
    let n3 := s.latch.a.extractLsb' 0 4
    exec .mixcol s = .next
      { s with
        result := (n0 ^^^ multiply 4 n2) ++ (n1 ^^^ multiply 4 n3) ++ (multiply 4 n0 ^^^ n2) ++ (multiply 4 n1 ^^^ n3)
        status := { s.status with busy := false, done := true } } ∧
    exec .invmixcol s = .next
      { s with
        result := (multiply 9 n0 ^^^ multiply 2 n2) ++ (multiply 9 n1 ^^^ multiply 2 n3) ++ (multiply 2 n0 ^^^ multiply 9 n2) ++
          (multiply 2 n1 ^^^ multiply 9 n3)
        status := { s.status with busy := false, done := true } }) ∧
  (∀ u v : Block,
    fromMatrix (mixColumns (toMatrix (u ^^^ v))) = fromMatrix (mixColumns (toMatrix u)) ^^^ fromMatrix (mixColumns (toMatrix v)) ∧
    fromMatrix (invMixColumns (toMatrix (u ^^^ v))) =
      fromMatrix (invMixColumns (toMatrix u)) ^^^ fromMatrix (invMixColumns (toMatrix v)) ∧
    fromMatrix (invMixColumns (toMatrix (fromMatrix (mixColumns (toMatrix u))))) = u) ∧
  fromMatrix (mixColumns (toMatrix 0)) = 0 ∧
  (∀ m : NibbleMatrix,
    (¬(m.n00 = 0 ∧ m.n10 = 0) → ¬((mixColumns m).n00 = 0 ∧ (mixColumns m).n10 = 0)) ∧
    (¬(m.n01 = 0 ∧ m.n11 = 0) → ¬((mixColumns m).n01 = 0 ∧ (mixColumns m).n11 = 0)) ∧
    (¬(m.n00 = 0 ↔ m.n10 = 0) → (mixColumns m).n00 ≠ 0 ∧ (mixColumns m).n10 ≠ 0) ∧
    (¬(m.n01 = 0 ↔ m.n11 = 0) → (mixColumns m).n01 ≠ 0 ∧ (mixColumns m).n11 ≠ 0)) ∧
  fromMatrix (mixColumns (toMatrix 0x0001)) = 0x0401 ∧ fromMatrix (mixColumns (toMatrix 0x1234)) = 0xD17C ∧
  fromMatrix (invMixColumns (toMatrix 0xD17C)) = 0x1234 ∧ fromMatrix (invMixColumns (toMatrix 0x0001)) = 0x0209

/-- ENC.B and DEC.B (43_cipher_pipeline.md R174, R175): RESULT is the baseline cipher of block and key, whatever CTRL and the round-key
registers hold; the second undoes the first under the same key. -/
def Obligations.BaselineCipherResults : Prop :=
  decode 0x00000010#32 = some .encB ∧ decode 0x00000011#32 = some .decB ∧
  (∀ s : State,
    exec .encB s = .next
      { s with
        result := encrypt Config.params.sbox .baseline s.latch.a s.latch.b false
        status := { s.status with busy := false, done := true } } ∧
    exec .decB s = .next
      { s with
        result := decrypt Config.params.sbox .baseline s.latch.a s.latch.b false
        status := { s.status with busy := false, done := true } }) ∧
  (∀ (sb : Sbox) (p k : Block), decrypt sb .baseline (encrypt sb .baseline p k false) k false = p) ∧
  ∀ sb, Sbox.ofTable defaultSboxTable = .ok sb →
    encrypt sb .baseline 0x1234 0x3A94 false = 0x6035 ∧ decrypt sb .baseline 0x6035 0x3A94 false = 0x1234 ∧
    encrypt sb .baseline 0 0 false ≠ 0

/-- ENC.E and DEC.E (R176, R177): RESULT is the enhanced cipher of block and key, with the masks of the key, or with masks 0 when
LATCH.ctrl is 1, where ENC.E does what ENC.B does; DEC.E undoes ENC.E under the same CTRL. A key whose two low nibbles are equal has first
mask 0, and so the baseline's first substitution, while its second mask may differ from 0. -/
def Obligations.EnhancedCipherResults : Prop :=
  decode 0x00000012#32 = some .encE ∧ decode 0x00000013#32 = some .decE ∧
  (∀ s : State,
    exec .encE s = .next
      { s with
        result := encrypt Config.params.sbox .enhanced s.latch.a s.latch.b s.latch.ctrl
        status := { s.status with busy := false, done := true } } ∧
    exec .decE s = .next
      { s with
        result := decrypt Config.params.sbox .enhanced s.latch.a s.latch.b s.latch.ctrl
        status := { s.status with busy := false, done := true } } ∧
    (s.latch.ctrl = true → exec .encE s = exec .encB s)) ∧
  (∀ (sb : Sbox) (p k : Block) (f : Bool),
    decrypt sb .enhanced (encrypt sb .enhanced p k f) k f = p ∧
    (k.extractLsb' 4 4 = k.extractLsb' 0 4 →
      (enhancedMasks sb k f).1 = 0 ∧ ∀ m, substitute sb .enhanced m (enhancedMasks sb k f).1 = substitute sb .baseline m 0)) ∧
  ∀ sb, Sbox.ofTable defaultSboxTable = .ok sb →
    encrypt sb .enhanced 0x1234 0x3A94 false = 0x18F4 ∧ decrypt sb .enhanced 0x18F4 0x3A94 false = 0x1234 ∧
    encrypt sb .enhanced 0x1234 0x3A94 true = 0x6035 ∧ decrypt sb .enhanced 0x18F4 0x3A94 true ≠ 0x1234 ∧
    enhancedMasks sb 0x3A94 false = (0xD, 0x3) ∧ (enhancedMasks sb 0x3A99 false).2 ≠ 0

/-- AVAL.PT and AVAL.KEY complete when the latched trial count is 1 to T_MAX (44_harness.md R196, R197): TREC, both STAT sets and LAST_EXP
are written and nothing else but STATUS; memory outside records 0 to T-1 reads as before. -/
def Obligations.HarnessCommandsComplete : Prop :=
  ∀ s : State, 1 ≤ s.latch.trials.toNat → s.latch.trials.toNat ≤ Config.params.tMax →
    ∀ x : Experiment,
      let rs := harness Config.params x s.latch.trials.toNat s.latch.seed s.latch.ctrl
      let t := { s with
        trec := writeRecords s.trec rs
        statB := statsOf (rs.map TrialRecord.dB)
        statE := statsOf (rs.map TrialRecord.dE)
        status := { s.status with
          busy := false
          done := true
          lastExp :=
            match x with
            | .pt => 1
            | .key => 2 } }
      exec (avalancheInstr x) s = .next t ∧
      ∀ a, (a < 0x10000 ∨ 0x10000 + 8 * s.latch.trials.toNat ≤ a) → Memory.readByte t.trec a = Memory.readByte s.trec a

/-- The trial-count errors (44_harness.md R198, 60_exceptions.md R224, R225): a count of 0 ends with TRIALS_ZERO, a count above T_MAX with
TRIALS_RANGE, and nothing but STATUS is written. -/
def Obligations.TrialCountErrors : Prop :=
  ∀ (s : State) (x : Experiment),
    (s.latch.trials.toNat = 0 →
      exec (avalancheInstr x) s = .next
        { s with status := { busy := false, done := true, err := true, errcode := 2, lastExp := s.status.lastExp } }) ∧
    (Config.params.tMax < s.latch.trials.toNat →
      exec (avalancheInstr x) s = .next
        { s with status := { busy := false, done := true, err := true, errcode := 3, lastExp := s.status.lastExp } })

/-- A successful harness command writes record `i` of TREC, for every trial `i`, with the fields of its trial at their places (44_harness.md
R195), and leaves every byte outside those records as it was (20_memory.md R57). -/
def Obligations.HarnessWritesRecords : Prop :=
  ∀ (s : State) (x : Experiment), 1 ≤ s.latch.trials.toNat → s.latch.trials.toNat ≤ Config.params.tMax →
    ∃ t, exec (avalancheInstr x) s = .next t ∧
      (∀ i, i < s.latch.trials.toNat →
        let r := trial Config.params x s.latch.seed s.latch.ctrl i
        Memory.readWord t.trec (0x10000 + 8 * i) = some (r.k ++ r.p) ∧
        ∃ w, Memory.readWord t.trec (0x10004 + 8 * i) = some w ∧
          w.extractLsb' 0 4 = r.b ∧ w.getLsbD 4 = decide (x = .key) ∧ (w.extractLsb' 8 5).toNat = r.dB ∧
          (w.extractLsb' 16 5).toNat = r.dE ∧ w.extractLsb' 5 3 = 0#3 ∧ w.extractLsb' 13 3 = 0#3 ∧ w.extractLsb' 21 11 = 0#11) ∧
      ∀ a, (a < 0x10000 ∨ 0x10000 + 8 * s.latch.trials.toNat ≤ a) → Memory.readByte t.trec a = Memory.readByte s.trec a

/-- A successful harness command leaves in each variant's STAT registers the exact count, sum, sum of squares, least and greatest of its
samples (44_harness.md R199, R202): no sum wraps (10_state.md R40, R41). -/
def Obligations.HarnessWritesStatistics : Prop :=
  ∀ (s : State) (x : Experiment), 1 ≤ s.latch.trials.toNat → s.latch.trials.toNat ≤ Config.params.tMax →
    ∃ t, exec (avalancheInstr x) s = .next t ∧
      ∀ (st : Stats) (d : Nat → Nat),
        (st = t.statB ∧ d = (fun i => (trial Config.params x s.latch.seed s.latch.ctrl i).dB)) ∨
          (st = t.statE ∧ d = (fun i => (trial Config.params x s.latch.seed s.latch.ctrl i).dE)) →
        st.count.toNat = s.latch.trials.toNat ∧
        st.sum.toNat = ∑ i ∈ Finset.range s.latch.trials.toNat, d i ∧
        st.sumsq.toNat = ∑ i ∈ Finset.range s.latch.trials.toNat, d i * d i ∧
        st.sum.toNat ≤ 131072 ∧ st.sumsq.toNat ≤ 2097152 ∧ st.min.toNat ≤ 16 ∧ st.max.toNat ≤ 16 ∧
        (∀ i, i < s.latch.trials.toNat → st.min.toNat ≤ d i ∧ d i ≤ st.max.toNat) ∧
        (∃ i, i < s.latch.trials.toNat ∧ d i = st.min.toNat) ∧ ∃ i, i < s.latch.trials.toNat ∧ d i = st.max.toNat

/-! ## The arithmetic of the cipher -/

/-- `multiply` is multiplication in GF(2^4) (40_field_and_tables.md R100): a nibble stands for a polynomial over GF(2), XOR is their sum,
and the product of two nibbles is congruent to `multiply` of them modulo x^4 + x + 1. -/
def Obligations.MultiplyIsFieldProduct : Prop :=
  let poly : Nibble → (ZMod 2)[X] := fun a => ∑ i ∈ Finset.range 4, if a.getLsbD i then X ^ i else 0
  ∀ a b : Nibble, poly (a ^^^ b) = poly a + poly b ∧ (X ^ 4 + X + 1 : (ZMod 2)[X]) ∣ poly a * poly b - poly (multiply a b)

/-- The packed and the matrix form of a block are the same thing (41_state_and_keyschedule.md R121), and elementwise XOR of matrices is
XOR of blocks (R122). -/
def Obligations.StateLayoutBijection : Prop :=
  (∀ v : Block, fromMatrix (toMatrix v) = v) ∧ (∀ m : NibbleMatrix, toMatrix (fromMatrix m) = m) ∧
  (∀ m : NibbleMatrix, fromMatrix m = m.n00 ++ m.n01 ++ m.n10 ++ m.n11) ∧
  ∀ u v : Block, fromMatrix (xorMatrix (toMatrix u) (toMatrix v)) = u ^^^ v

/-- Every round transformation is undone by its inverse, for every SBOX, mask and state (42_round_transforms.md R142, R143, R144, R146). -/
def Obligations.RoundTransformInverses : Prop :=
  ∀ (sb : Sbox) (k : Nibble) (m : NibbleMatrix),
    invSubNib sb (subNib sb m) = m ∧ subNib sb (invSubNib sb m) = m ∧
    invSubNibDynamic sb (subNibDynamic sb m k) k = m ∧ subNibDynamic sb (invSubNibDynamic sb m k) k = m ∧
    shiftRows (shiftRows m) = m ∧ invMixColumns (mixColumns m) = m ∧ mixColumns (invMixColumns m) = m

/-- For every mask the dynamic substitution is a permutation, and mask 0 gives the baseline substitution (42_round_transforms.md R155). -/
def Obligations.DynamicSubstitutionPermutes : Prop :=
  ∀ sb : Sbox,
    (∀ k : Nibble, Function.Bijective (fun x : Nibble => sboxAt sb (x ^^^ k) ^^^ k)) ∧
    ∀ m : NibbleMatrix, subNibDynamic sb m 0 = subNib sb m ∧ invSubNibDynamic sb m 0 = invSubNib sb m

/-- What holds of the key schedule for every SBOX (41_state_and_keyschedule.md R131): K0 is the key, m1 is the XOR of the key's two low
nibbles, and m2 is the XOR of w2's nibbles (the high byte of K1) and m1. -/
def Obligations.KeyMaskConsequences : Prop :=
  ∀ (sb : Sbox) (key : Block),
    (expandKey sb key).k0 = key ∧
    roundKeyMask (expandKey sb key).k1 = key.extractLsb' 4 4 ^^^ key.extractLsb' 0 4 ∧
    roundKeyMask (expandKey sb key).k2 =
      (expandKey sb key).k1.extractLsb' 12 4 ^^^ (expandKey sb key).k1.extractLsb' 8 4 ^^^ roundKeyMask (expandKey sb key).k1

/-- The key expansion word by word (41_state_and_keyschedule.md R127), for every SBOX: with `w0, w1` the bytes of the key, high byte first,
each later pair of words is the one before it, XORed with the substituted, half-swapped low word and the round constant. -/
def Obligations.KeyExpansionWords : Prop :=
  ∀ (sb : Sbox) (key : Block),
    let high : Block → BitVec 8 := fun b => b.extractLsb' 8 8
    let low : Block → BitVec 8 := fun b => b.extractLsb' 0 8
    let turned : BitVec 8 → BitVec 8 := fun w => sb (w.extractLsb' 0 4) ++ sb (w.extractLsb' 4 4)
    let ks := expandKey sb key
    high ks.k0 = high key ∧ low ks.k0 = low key ∧
    high ks.k1 = high ks.k0 ^^^ (turned (low ks.k0) ^^^ 0x80) ∧ low ks.k1 = high ks.k1 ^^^ low ks.k0 ∧
    high ks.k2 = high ks.k1 ^^^ (turned (low ks.k1) ^^^ 0x30) ∧ low ks.k2 = high ks.k2 ^^^ low ks.k1

/-- The two rounds of Encrypt and Decrypt (43_cipher_pipeline.md R172, R173), written out over the four nibbles of the packed block, for every
SBOX, variant and mask override: the baseline is the case of masks 0. -/
def Obligations.CipherRoundsOnBlocks : Prop :=
  ∀ (sb : Sbox) (v : Variant) (x key : Block) (f : Bool),
    let nib : Block → Nat → Nibble := fun b j => b.extractLsb' (12 - 4 * j) 4
    let each : (Nibble → Nibble) → Block → Block := fun g b => g (nib b 0) ++ g (nib b 1) ++ g (nib b 2) ++ g (nib b 3)
    let shift : Block → Block := fun b => nib b 0 ++ nib b 1 ++ nib b 3 ++ nib b 2
    let mix : Nibble → Nibble → Block → Block := fun p q b =>
      (multiply p (nib b 0) ^^^ multiply q (nib b 2)) ++ (multiply p (nib b 1) ^^^ multiply q (nib b 3)) ++
        (multiply q (nib b 0) ^^^ multiply p (nib b 2)) ++ (multiply q (nib b 1) ^^^ multiply p (nib b 3))
    let ks := expandKey sb key
    let mask : Block → Nibble := fun k =>
      if v = .enhanced ∧ f = false then nib k 0 ^^^ nib k 1 ^^^ nib k 2 ^^^ nib k 3 else 0
    let sub : Nibble → Block → Block := fun m => each (fun y => sb (y ^^^ m) ^^^ m)
    let unsub : Nibble → Block → Block := fun m => each (fun y => sb.symm (y ^^^ m) ^^^ m)
    encrypt sb v x key f =
      shift (sub (mask ks.k2) (mix 1 4 (shift (sub (mask ks.k1) (x ^^^ ks.k0))) ^^^ ks.k1)) ^^^ ks.k2 ∧
    decrypt sb v x key f =
      unsub (mask ks.k1) (shift (mix 9 2 (unsub (mask ks.k2) (shift (x ^^^ ks.k2)) ^^^ ks.k1))) ^^^ ks.k0

/-- Round trip (43_cipher_pipeline.md R178): decryption undoes encryption for every SBOX, variant, block, key and mask override, so that
encryption is a bijection; and so do the commands on the machine: DEC of the RESULT of ENC, under the same key and CTRL, leaves the
plaintext in RESULT. -/
def Obligations.CipherRoundTrip : Prop :=
  (∀ (sb : Sbox) (v : Variant) (p k : Block) (f : Bool), decrypt sb v (encrypt sb v p k f) k f = p) ∧
  (∀ (sb : Sbox) (v : Variant) (k : Block) (f : Bool), Function.Bijective (fun p => encrypt sb v p k f)) ∧
  ∀ (v : Variant) (s : State), ∃ t, exec (encryptInstr v) s = .next t ∧
    ∀ u : State, u.latch.a = t.result → u.latch.b = s.latch.b → u.latch.ctrl = s.latch.ctrl →
      ∃ w, exec (decryptInstr v) u = .next w ∧ w.result = s.latch.a

/-- Mask-zero equivalence (43_cipher_pipeline.md R179): with the masks forced to 0 the enhanced cipher is the baseline cipher, and the
enhanced commands do to the machine exactly what the baseline commands do. -/
def Obligations.MaskZeroEquivalence : Prop :=
  (∀ (sb : Sbox) (p k : Block),
    encrypt sb .enhanced p k true = encrypt sb .baseline p k false ∧
    decrypt sb .enhanced p k true = decrypt sb .baseline p k false) ∧
  ∀ s : State, s.latch.ctrl = true → exec .encE s = exec .encB s ∧ exec .decE s = exec .decB s

/-- One trial of the harness and its loop (44_harness.md R191, R193, R194): the record holds the draw of its trial and, for each variant, in
how many bits the ciphertexts before and after the flip of the drawn bit differ, the bit being flipped in the plaintext, or in the key;
the baseline runs with mask override 0; record `i` of a run of `n` trials is trial `i`. -/
def Obligations.TrialMeasuresTheFlip : Prop :=
  ∀ (P : Params) (x : Experiment) (seed : BusWord) (f : Bool),
    (∀ i : Nat,
      let d := P.trialSource x seed i
      let r := trial P x seed f i
      let flip : Block → Block := fun v => v ^^^ BitVec.ofNat 16 (2 ^ d.b.toNat)
      let differing : Block → Block → Nat := fun a b => ((Finset.range 16).filter (fun j => a.getLsbD j ≠ b.getLsbD j)).card
      r.p = d.p ∧ r.k = d.k ∧ r.b = d.b ∧ r.target = x ∧
      (x = .pt →
        r.dB = differing (encrypt P.sbox .baseline d.p d.k false) (encrypt P.sbox .baseline (flip d.p) d.k false) ∧
        r.dE = differing (encrypt P.sbox .enhanced d.p d.k f) (encrypt P.sbox .enhanced (flip d.p) d.k f)) ∧
      (x = .key →
        r.dB = differing (encrypt P.sbox .baseline d.p d.k false) (encrypt P.sbox .baseline d.p (flip d.k) false) ∧
        r.dE = differing (encrypt P.sbox .enhanced d.p d.k f) (encrypt P.sbox .enhanced d.p (flip d.k) f))) ∧
    ∀ n : Nat, (harness P x n seed f).length = n ∧ ∀ i, i < n → (harness P x n seed f)[i]? = some (trial P x seed f i)

/-- Every sample of the harness lies in [0, 16], and every sample of the plaintext experiment in [2, 8], for every implementation, seed,
mask override and trial (44_harness.md R204). -/
def Obligations.DistanceBounds : Prop :=
  ∀ (P : Params) (x : Experiment) (seed : BusWord) (f : Bool) (i : Nat),
    let r := trial P x seed f i
    r.dB ≤ 16 ∧ r.dE ≤ 16 ∧ (x = .pt → 2 ≤ r.dB ∧ r.dB ≤ 8 ∧ 2 ≤ r.dE ∧ r.dE ≤ 8)

/-- Reproducibility (44_harness.md R203): two harness commands of one experiment with the same seed and mask override, from any two states
whatever else they hold, write the same records in the trials both make, and the same statistics when they make equally many. -/
def Obligations.HarnessReproducible : Prop :=
  ∀ (x : Experiment) (s1 s2 : State), s1.latch.seed = s2.latch.seed → s1.latch.ctrl = s2.latch.ctrl →
    1 ≤ s1.latch.trials.toNat → s1.latch.trials.toNat ≤ s2.latch.trials.toNat → s2.latch.trials.toNat ≤ Config.params.tMax →
    ∃ t1 t2, exec (avalancheInstr x) s1 = .next t1 ∧ exec (avalancheInstr x) s2 = .next t2 ∧
      (∀ i, i < s1.latch.trials.toNat →
        Memory.readWord t1.trec (trecWord0 i) = Memory.readWord t2.trec (trecWord0 i) ∧
        Memory.readWord t1.trec (trecWord1 i) = Memory.readWord t2.trec (trecWord1 i) ∧
        (Memory.readWord t1.trec (trecWord1 i)).isSome) ∧
      (s1.latch.trials = s2.latch.trials → t1.statB = t2.statB ∧ t1.statE = t2.statE)

/-- The mean and the standard deviation, of either kind, are computed from any STAT registers as 44_harness.md R200 and R201 say; and from
those of a run of samples in [0, 16] they are the samples' own: SUM / COUNT, the root of the mean squared deviation, and for two or more
samples the root of the sample variance. One sample has no sample deviation. -/
def Obligations.SummaryStatisticsAreExact : Prop :=
  (∀ st : Stats, 1 ≤ st.count.toNat →
    let n : ℚ := st.count.toNat
    let s : ℚ := st.sum.toNat
    let q : ℚ := st.sumsq.toNat
    meanOf st = some (s / n) ∧
    (s * s ≤ n * q →
      stddev .population st = some (Real.sqrt (((n * q - s * s) / (n * n) : ℚ) : ℝ)) ∧
      (2 ≤ st.count.toNat → stddev .sample st = some (Real.sqrt (((n * q - s * s) / (n * (n - 1)) : ℚ) : ℝ)))) ∧
    (st.count.toNat = 1 → stddev .sample st = none)) ∧
  (∀ (P : Params) (st : Stats), stddevOf P st = stddev P.stddevKind st) ∧
  ∀ ds : List Nat, 1 ≤ ds.length → ds.length ≤ 8192 → (∀ d ∈ ds, d ≤ 16) →
    let mean : ℚ := (ds.sum : ℚ) / ds.length
    let deviations : ℚ := (ds.map (fun d : Nat => ((d : ℚ) - mean) ^ 2)).sum
    meanOf (statsOf ds) = some mean ∧
    stddevSquared .population (statsOf ds) = some (deviations / ds.length) ∧
    (2 ≤ ds.length → stddevSquared .sample (statsOf ds) = some (deviations / (ds.length - 1))) ∧
    (ds.length = 1 → stddevSquared .sample (statsOf ds) = none) ∧
    stddev .population (statsOf ds) = some (Real.sqrt ((deviations / ds.length : ℚ) : ℝ)) ∧
    (2 ≤ ds.length → stddev .sample (statsOf ds) = some (Real.sqrt ((deviations / (ds.length - 1) : ℚ) : ℝ))) ∧
    (ds.length = 1 → stddev .sample (statsOf ds) = none)

/-! ## The bus -/

/-- The register map (20_memory.md R52) at every register, and the TREC window (R56) at every record. -/
def Obligations.RegisterMapAndTrecWindow : Prop :=
  ∀ tMax, 1 ≤ tMax → tMax ≤ 8192 →
    (∀ p ∈ [(0x00000#17, Register.cmd), (0x00004#17, .status), (0x00008#17, .ctrl), (0x0000C#17, .opa), (0x00010#17, .opb),
        (0x00014#17, .result), (0x00018#17, .rk0), (0x0001C#17, .rk1), (0x00020#17, .rk2), (0x00024#17, .trials), (0x00028#17, .seed),
        (0x00030#17, .statBCount), (0x00034#17, .statBSum), (0x00038#17, .statBSumsq), (0x0003C#17, .statBMinmax),
        (0x00040#17, .statECount), (0x00044#17, .statESum), (0x00048#17, .statESumsq), (0x0004C#17, .statEMinmax)],
      accessTarget tMax p.1 .word = some (.register p.2)) ∧
    ∀ i, i < tMax →
      0x10004 + 8 * i + 3 ≤ 0x1FFFF ∧
      accessTarget tMax (BitVec.ofNat 17 (0x10000 + 8 * i)) .word = some (.trecWord (0x10000 + 8 * i)) ∧
      accessTarget tMax (BitVec.ofNat 17 (0x10004 + 8 * i)) .word = some (.trecWord (0x10004 + 8 * i))

/-- A host access that is not 32-bit, not aligned, or to an unmapped address is a bus error, read or write, in every state (20_memory.md R51,
R53). -/
def Obligations.BadAccessesAreBusErrors : Prop :=
  ∀ (s : State) (a : HostAddr) (w : AccessWidth) (v : BusWord),
    w ≠ .word ∨ a.extractLsb' 0 2 ≠ 0 ∨ Unmapped Config.params.tMax a →
      hostRead a w s = .fault (.busError a) ∧ hostWrite a w v s = .fault (.busError a)

/-- A read of a TREC word that is unwritten faults while the core is idle (that it does not fault while busy is the model's choice, log 7,
and not claimed here); every TREC word is unwritten after reset, and a step writes one
only when it performs a harness command with a legal trial count (10_state.md R49). -/
def Obligations.UnwrittenRecordReadsFault : Prop :=
  (∀ (s : State) (i j : Nat), i < Config.params.tMax → j < 2 → s.status.busy = false →
    Memory.readWord s.trec (0x10000 + 8 * i + 4 * j) = none →
      hostRead (BitVec.ofNat 17 (0x10000 + 8 * i + 4 * j)) .word s =
        .fault (.readUnwritten (BitVec.ofNat 17 (0x10000 + 8 * i + 4 * j)))) ∧
  (∀ a, Memory.readWord State.reset.trec a = none) ∧
  ∀ (s t : State) (a : Nat), step s = .next t → Memory.readWord s.trec a = none → Memory.readWord t.trec a ≠ none →
    s.status.busy = true ∧ (decode s.latch.cmd = some .avalPt ∨ decode s.latch.cmd = some .avalKey) ∧
      1 ≤ s.latch.trials.toNat ∧ s.latch.trials.toNat ≤ Config.params.tMax

/-- While a command is in flight, a read of RESULT, RK0 to RK2, a STAT register or a TREC word answers a free value, whatever they hold, and
a read of any other register answers the word stored (20_memory.md R61). That an unwritten TREC word read while busy answers a free value
too and does not fault (log 7), and that free values are drawn by a counter that goes up by one (log 5), are the model's choices. -/
def Obligations.BusyOutputReadsAreFree : Prop :=
  ∀ s : State,
    (s.status.busy = true →
      ∀ a : HostAddr,
        (∃ r ∈ [Register.result, .rk0, .rk1, .rk2, .statBCount, .statBSum, .statBSumsq, .statBMinmax, .statECount, .statESum,
            .statESumsq, .statEMinmax], a = registerAddr r) ∨
          (∃ i j, i < Config.params.tMax ∧ j < 2 ∧ a = BitVec.ofNat 17 (0x10000 + 8 * i + 4 * j)) →
        hostRead a .word s = .next { s with env :=
          { s.env with answers := { addr := a, data := Config.freeWord s.env.draws } :: s.env.answers, draws := s.env.draws + 1 } }) ∧
    (∀ r ∈ [Register.cmd, .status, .ctrl, .opa, .opb, .trials, .seed],
      hostRead (registerAddr r) .word s = .next { s with env :=
        { s.env with answers := { addr := registerAddr r, data := readRegister r s } :: s.env.answers } }) ∧
    readRegister .cmd s = s.cmd ∧ readRegister .opa s = s.opa.setWidth 32 ∧ readRegister .opb s = s.opb.setWidth 32 ∧
    readRegister .trials s = s.trials ∧ readRegister .seed s = s.seed

/-- While the core is idle a read of any register, and of a written TREC word, answers the word stored: the whole word of CMD (10_state.md
R26), TRIALS, SEED and the accumulators (R37 to R41), the zero-extended 16 bits of OPA, OPB, RESULT and RK0 to RK2 (R33 to R36), the bit
of CTRL (R32), STATUS's fields at their places (R27) and MINMAX's (R42), with reserved bits 0 (20_memory.md R55). -/
def Obligations.IdleReadsReturnStoredWords : Prop :=
  (∀ (s : State) (r : Register), s.status.busy = false →
    hostRead (registerAddr r) .word s = .next { s with env :=
      { s.env with answers := { addr := registerAddr r, data := readRegister r s } :: s.env.answers } }) ∧
  (∀ (s : State) (i j : Nat) (w : BusWord), i < Config.params.tMax → j < 2 → s.status.busy = false →
    Memory.readWord s.trec (0x10000 + 8 * i + 4 * j) = some w →
      hostRead (BitVec.ofNat 17 (0x10000 + 8 * i + 4 * j)) .word s = .next { s with env :=
        { s.env with answers := { addr := BitVec.ofNat 17 (0x10000 + 8 * i + 4 * j), data := w } :: s.env.answers } }) ∧
  ∀ s : State,
    (let w := readRegister .status s;
      w.getLsbD 0 = s.status.busy ∧ w.getLsbD 1 = s.status.done ∧ w.getLsbD 2 = s.status.err ∧ w.getLsbD 3 = false ∧
      w.extractLsb' 4 4 = s.status.errcode ∧ w.extractLsb' 8 2 = s.status.lastExp ∧ w.extractLsb' 10 22 = 0#22) ∧
    (readRegister .cmd s = s.cmd ∧ readRegister .trials s = s.trials ∧ readRegister .seed s = s.seed) ∧
    (readRegister .opa s = s.opa.setWidth 32 ∧ readRegister .opb s = s.opb.setWidth 32 ∧
      readRegister .result s = s.result.setWidth 32) ∧
    (readRegister .rk0 s = s.rk0.setWidth 32 ∧ readRegister .rk1 s = s.rk1.setWidth 32 ∧
      readRegister .rk2 s = s.rk2.setWidth 32) ∧
    (readRegister .statBCount s = s.statB.count ∧ readRegister .statBSum s = s.statB.sum ∧
      readRegister .statBSumsq s = s.statB.sumsq) ∧
    (readRegister .statECount s = s.statE.count ∧ readRegister .statESum s = s.statE.sum ∧
      readRegister .statESumsq s = s.statE.sumsq) ∧
    (∀ r ∈ [Register.opa, .opb, .result, .rk0, .rk1, .rk2], (readRegister r s).extractLsb' 16 16 = 0#16) ∧
    (readRegister .ctrl s).getLsbD 0 = s.ctrl ∧ (readRegister .ctrl s).extractLsb' 1 31 = 0#31 ∧
    ∀ p ∈ [(Register.statBMinmax, s.statB), (.statEMinmax, s.statE)],
      (readRegister p.1 s).extractLsb' 0 5 = p.2.min ∧ (readRegister p.1 s).extractLsb' 5 3 = 0#3 ∧
      (readRegister p.1 s).extractLsb' 8 5 = p.2.max ∧ (readRegister p.1 s).extractLsb' 13 19 = 0#19

/-- No read has a side effect on the core (20_memory.md R62): a host read that is answered leaves every register, TREC and LATCH as they
were, adds one answer at its own address, and leaves the host's pending operations and the turns. -/
def Obligations.ReadsLeaveCoreUnchanged : Prop :=
  ∀ (s t : State) (a : HostAddr) (w : AccessWidth), hostRead a w s = .next t →
    SameCore s t ∧ t.env.pending = s.env.pending ∧ t.env.turns = s.env.turns ∧
      ∃ v, t.env.answers = { addr := a, data := v } :: s.env.answers

/-- A host write to a read-only register or to a TREC word is accepted and changes nothing (20_memory.md R54). -/
def Obligations.ReadOnlyWritesIgnored : Prop :=
  ∀ (s : State) (v : BusWord),
    (∀ r ∈ [Register.status, .result, .rk0, .rk1, .rk2, .statBCount, .statBSum, .statBSumsq, .statBMinmax, .statECount, .statESum,
        .statESumsq, .statEMinmax], hostWrite (registerAddr r) .word v s = .next s) ∧
    ∀ i j, i < Config.params.tMax → j < 2 → hostWrite (BitVec.ofNat 17 (0x10000 + 8 * i + 4 * j)) .word v s = .next s

/-- A host write to an operand register stores the bits the register uses, in every state, and nothing else changes; a read then returns
them zero-extended (10_state.md R33, R34; 20_memory.md R55). -/
def Obligations.OperandWriteReadBack : Prop :=
  ∀ (s : State) (v : BusWord),
    hostWrite 0x0000C .word v s = .next { s with opa := v.setWidth 16 } ∧
    hostWrite 0x00010 .word v s = .next { s with opb := v.setWidth 16 } ∧
    hostWrite 0x00008 .word v s = .next { s with ctrl := v.getLsbD 0 } ∧
    hostWrite 0x00024 .word v s = .next { s with trials := v } ∧
    hostWrite 0x00028 .word v s = .next { s with seed := v } ∧
    readRegister .opa { s with opa := v.setWidth 16 } = v &&& 0x0000FFFF ∧
    readRegister .opb { s with opb := v.setWidth 16 } = v &&& 0x0000FFFF ∧
    readRegister .ctrl { s with ctrl := v.getLsbD 0 } = v &&& 0x00000001 ∧
    readRegister .trials { s with trials := v } = v ∧ readRegister .seed { s with seed := v } = v

/-- Operand writes take effect at once and do not reach the command in flight (20_memory.md R60, 70_reset_and_hazards.md R256): writing an
operand register before or after CORE's step gives the same state. -/
def Obligations.OperandWritesSpareCommandInFlight : Prop :=
  ∀ (s : State) (v : BusWord), s.status.busy = true → ∀ r ∈ [Register.opa, .opb, .ctrl, .trials, .seed],
    hostWrite (registerAddr r) .word v s = .next (writeRegister r v s) ∧
    ∃ t, coreMove s = .next t ∧ coreMove (writeRegister r v s) = .next (writeRegister r v t)

/-- A CMD write while idle stores the word and latches the operands, in one action, with BUSY set, DONE, ERR and ERRCODE cleared and LAST_EXP
kept; while busy it changes nothing (20_memory.md R59). -/
def Obligations.IssueLatchesOperands : Prop :=
  ∀ (s : State) (v : BusWord),
    (s.status.busy = false →
      hostWrite 0x00000 .word v s = .next
        { s with
          cmd := v
          latch := { cmd := v, a := s.opa, b := s.opb, ctrl := s.ctrl, trials := s.trials, seed := s.seed }
          status := { busy := true, done := false, err := false, errcode := 0, lastExp := s.status.lastExp } }) ∧
    (s.status.busy = true → hostWrite 0x00000 .word v s = .next s)

/-! ## Reset -/

/-- Reset may come at any time (70_reset_and_hazards.md R250): in every state, whatever is in flight, a reset turn leaves every register and
TREC as they are after reset, so that no output of a command in flight is written. What LATCH then holds is not claimed. -/
def Obligations.ResetStepAtAnyTime : Prop :=
  ∀ (s : State) (ts : List Turn), s.env.turns = .reset :: ts →
    ∃ t, step s = .next t ∧ t = { State.reset with latch := t.latch, env := t.env }

/-- After reset every register reads 0x00000000 (10_state.md R48) and no TREC byte is written (R49). -/
def Obligations.ResetRegistersAreZero : Prop :=
  (∀ r : Register, readRegister r State.reset = 0) ∧ (∀ a, Memory.readByte State.reset.trec a = none) ∧
  State.reset.status = { busy := false, done := false, err := false, errcode := 0, lastExp := 0 }

/-! ## Frames and whole-machine rules -/

/-- What each command reads and writes (30_encoding.md R77): a result command writes RESULT, KEYEXP writes RK0 to RK2, a harness command
records 0 to T-1 of TREC, STAT and LAST_EXP, each with STATUS, and every other byte of memory is as before; and what a command writes
depends on the latched inputs of its row alone. -/
def Obligations.CommandsKeepTheirWriteSet : Prop :=
  (∀ i ∈ resultCommands, ∀ s : State, ∃ t, exec i s = .next t ∧
    t = { s with result := t.result, status := { s.status with busy := false, done := true } } ∧
    ∀ a, Memory.readByte t.trec a = Memory.readByte s.trec a) ∧
  (∀ s : State, ∃ t, exec .keyexp s = .next t ∧
    t = { s with rk0 := t.rk0, rk1 := t.rk1, rk2 := t.rk2, status := { s.status with busy := false, done := true } } ∧
    ∀ a, Memory.readByte t.trec a = Memory.readByte s.trec a) ∧
  (∀ x : Experiment, ∀ s : State, ∃ t, exec (avalancheInstr x) s = .next t ∧
    t = { s with trec := t.trec, statB := t.statB, statE := t.statE, status := t.status } ∧
    ∀ a, (a < 0x10000 ∨ 0x10000 + 8 * s.latch.trials.toNat ≤ a) → Memory.readByte t.trec a = Memory.readByte s.trec a) ∧
  (∀ i ∈ [Instr.gfmul, .xorst, .subnibd, .invsubnibd, .encB, .decB], ∀ s u t w : State,
    s.latch.a = u.latch.a → s.latch.b = u.latch.b → exec i s = .next t → exec i u = .next w → t.result = w.result) ∧
  (∀ i ∈ [Instr.sboxf, .sboxi, .rkmask, .subnib, .invsubnib, .shrows, .invshrows, .mixcol, .invmixcol], ∀ s u t w : State,
    s.latch.a = u.latch.a → exec i s = .next t → exec i u = .next w → t.result = w.result) ∧
  (∀ s u t w : State, s.latch.a = u.latch.a → exec .keyexp s = .next t → exec .keyexp u = .next w →
    t.rk0 = w.rk0 ∧ t.rk1 = w.rk1 ∧ t.rk2 = w.rk2) ∧
  (∀ i ∈ [Instr.encE, .decE], ∀ s u t w : State,
    s.latch.a = u.latch.a → s.latch.b = u.latch.b → s.latch.ctrl = u.latch.ctrl → exec i s = .next t → exec i u = .next w →
      t.result = w.result) ∧
  ∀ x : Experiment, ∀ s u t w : State,
    s.latch.trials = u.latch.trials → s.latch.seed = u.latch.seed → s.latch.ctrl = u.latch.ctrl →
    1 ≤ s.latch.trials.toNat → s.latch.trials.toNat ≤ Config.params.tMax →
    exec (avalancheInstr x) s = .next t → exec (avalancheInstr x) u = .next w →
      t.statB = w.statB ∧ t.statE = w.statE ∧ t.status.lastExp = w.status.lastExp ∧
      ∀ a, 0x10000 ≤ a → a < 0x10000 + 8 * s.latch.trials.toNat → Memory.readByte t.trec a = Memory.readByte w.trec a

/-- Each output is written by its commands and by reset only (10_state.md R35, R36, R31; 20_memory.md R57): if a step that is no reset turn
changes RESULT, RK0 to RK2, or TREC, STAT or LAST_EXP, then a command in flight has just been performed that writes it. -/
def Obligations.OutputsWrittenOnlyByTheirCommands : Prop :=
  ∀ s t : State, step s = .next t → s.env.turns.head? ≠ some .reset →
    (t.result ≠ s.result → s.status.busy = true ∧ ∃ i ∈ resultCommands, decode s.latch.cmd = some i) ∧
    ((t.rk0, t.rk1, t.rk2) ≠ (s.rk0, s.rk1, s.rk2) → s.status.busy = true ∧ decode s.latch.cmd = some .keyexp) ∧
    ((t.trec, t.statB, t.statE, t.status.lastExp) ≠ (s.trec, s.statB, s.statE, s.status.lastExp) →
      s.status.busy = true ∧ t.status.done = true ∧ t.status.err = s.status.err ∧
        ∃ x, decode s.latch.cmd = some (avalancheInstr x) ∧ t.status.lastExp = experimentCode x ∧
          1 ≤ s.latch.trials.toNat ∧ s.latch.trials.toNat ≤ Config.params.tMax)

/-- A command's outputs appear together when BUSY clears (20_memory.md R63): a step after which the core is busy has changed no output. -/
def Obligations.OutputsAppearWhenBusyClears : Prop :=
  ∀ s t : State, step s = .next t → t.status.busy = true → SameOutputs s t

/-- An error stays until the next issue or a reset clears it (60_exceptions.md R228): from an idle state with ERR set, a step leaves STATUS as
it is, or is the issue of the next command, or is a reset turn. -/
def Obligations.ErrorStaysUntilNextIssue : Prop :=
  ∀ s t : State, s.status.busy = false → s.status.err = true → step s = .next t →
    t.status = s.status ∨
    t.status = { busy := true, done := false, err := false, errcode := 0, lastExp := s.status.lastExp } ∨
    s.env.turns.head? = some .reset

/-- A STATUS read straight after the CMD write may see BUSY = 1 or BUSY = 0, and the machine admits both (70_reset_and_hazards.md R260): with
HOST's turn next it sees 1, with CORE's turn between it sees 0. That a list of turns decides it is the model's choice (log 2). -/
def Obligations.StatusReadAfterIssueRaces : Prop :=
  ∀ (s : State) (v : BusWord), s.status.busy = false →
    s.env.pending = [.write 0x00000 .word v, .read 0x00004 .word] →
    (s.env.turns = [.host, .host] → ∃ t a, Host.Core.run Sys2Proof.core 2 s = .next t ∧
      t.env.answers = a :: s.env.answers ∧ a.data.getLsbD 0 = true) ∧
    (s.env.turns = [.host, .core, .host] → ∃ t a, Host.Core.run Sys2Proof.core 3 s = .next t ∧
      t.env.answers = a :: s.env.answers ∧ a.data.getLsbD 0 = false ∧ a.data.getLsbD 1 = true)

/-- The machine stops for bad host accesses only (60_exceptions.md R231): a step that faults is a host access that is a bus error, or a read of
an unwritten TREC word; no step is refused. That the latter faults only while the core is idle is the model's choice (log 7) and no
rule's. -/
def Obligations.OnlyBadHostAccessesFault : Prop :=
  ∀ s : State,
    (∀ r, step s ≠ .refused r) ∧
    ∀ f, step s = .fault f →
      ∃ a w rest,
        ((∃ v, s.env.pending = .write a w v :: rest) ∨ s.env.pending = .read a w :: rest) ∧
        ((f = .busError a ∧ (w ≠ .word ∨ a.extractLsb' 0 2 ≠ 0 ∨ Unmapped Config.params.tMax a)) ∨
          (f = .readUnwritten a ∧ s.env.pending = .read a w :: rest ∧ s.status.busy = false ∧
            Memory.readWord s.trec a.toNat = none))

/-! ## Invariants -/

/-- STATUS stays legal (10_state.md R27, R29, R30), and a command in flight stays the word in CMD (R26), from every such state. -/
def Obligations.StatusStaysLegal : Prop :=
  ∀ s t : State, s.status.Legal → CommandHeld s → step s = .next t → t.status.Legal ∧ CommandHeld t

/-- TREC stays in its canonical form, inside its window of T_MAX records, with whole records whose other bits are 0 and whose distances are
in [0, 16] (10_state.md R43; 20_memory.md R56, R57). -/
def Obligations.TrecStaysLegal : Prop :=
  ∀ s t : State, TrecLegal Config.params.tMax s.trec → step s = .next t → TrecLegal Config.params.tMax t.trec

/-- LAST_EXP always tells whose outputs TREC and STAT hold (10_state.md R31, 70_reset_and_hazards.md R257, R258): every step keeps it that they
are the records and the statistics of one whole run of that experiment, or, for LAST_EXP = 0, as reset left them. -/
def Obligations.OutputsDescribeLastRun : Prop :=
  ∀ s t : State, OutputsHeld Config.params s → step s = .next t → OutputsHeld Config.params t

/-- The state after reset is good: STATUS is legal, TREC is legal, and LAST_EXP = 0 tells that no run is held. -/
def Obligations.ResetStateIsGood : Prop := Good State.reset
end

