-- ==== Sys2Proof/Laws/State.lean ====
section
/-! SUPPORT. Every field of the state after every update, so that no proof unfolds an update. -/

namespace Sys2Proof.Machine

/-! `issue` -/

@[simp] theorem issue_cmd (v : BusWord) (s : State) : (issue v s).cmd = v := rfl
@[simp] theorem issue_status (v : BusWord) (s : State) : (issue v s).status = s.status.issued := rfl
@[simp] theorem issue_ctrl (v : BusWord) (s : State) : (issue v s).ctrl = s.ctrl := rfl
@[simp] theorem issue_opa (v : BusWord) (s : State) : (issue v s).opa = s.opa := rfl
@[simp] theorem issue_opb (v : BusWord) (s : State) : (issue v s).opb = s.opb := rfl
@[simp] theorem issue_result (v : BusWord) (s : State) : (issue v s).result = s.result := rfl
@[simp] theorem issue_rk0 (v : BusWord) (s : State) : (issue v s).rk0 = s.rk0 := rfl
@[simp] theorem issue_rk1 (v : BusWord) (s : State) : (issue v s).rk1 = s.rk1 := rfl
@[simp] theorem issue_rk2 (v : BusWord) (s : State) : (issue v s).rk2 = s.rk2 := rfl
@[simp] theorem issue_trials (v : BusWord) (s : State) : (issue v s).trials = s.trials := rfl
@[simp] theorem issue_seed (v : BusWord) (s : State) : (issue v s).seed = s.seed := rfl
@[simp] theorem issue_statB (v : BusWord) (s : State) : (issue v s).statB = s.statB := rfl
@[simp] theorem issue_statE (v : BusWord) (s : State) : (issue v s).statE = s.statE := rfl
@[simp] theorem issue_trec (v : BusWord) (s : State) : (issue v s).trec = s.trec := rfl
@[simp] theorem issue_latch (v : BusWord) (s : State) : (issue v s).latch = { cmd := v, a := s.opa, b := s.opb, ctrl := s.ctrl, trials := s.trials, seed := s.seed } := rfl
@[simp] theorem issue_env (v : BusWord) (s : State) : (issue v s).env = s.env := rfl

/-! `complete` -/

@[simp] theorem complete_cmd (s : State) : (complete s).cmd = s.cmd := rfl
@[simp] theorem complete_status (s : State) : (complete s).status = s.status.completed := rfl
@[simp] theorem complete_ctrl (s : State) : (complete s).ctrl = s.ctrl := rfl
@[simp] theorem complete_opa (s : State) : (complete s).opa = s.opa := rfl
@[simp] theorem complete_opb (s : State) : (complete s).opb = s.opb := rfl
@[simp] theorem complete_result (s : State) : (complete s).result = s.result := rfl
@[simp] theorem complete_rk0 (s : State) : (complete s).rk0 = s.rk0 := rfl
@[simp] theorem complete_rk1 (s : State) : (complete s).rk1 = s.rk1 := rfl
@[simp] theorem complete_rk2 (s : State) : (complete s).rk2 = s.rk2 := rfl
@[simp] theorem complete_trials (s : State) : (complete s).trials = s.trials := rfl
@[simp] theorem complete_seed (s : State) : (complete s).seed = s.seed := rfl
@[simp] theorem complete_statB (s : State) : (complete s).statB = s.statB := rfl
@[simp] theorem complete_statE (s : State) : (complete s).statE = s.statE := rfl
@[simp] theorem complete_trec (s : State) : (complete s).trec = s.trec := rfl
@[simp] theorem complete_latch (s : State) : (complete s).latch = s.latch := rfl
@[simp] theorem complete_env (s : State) : (complete s).env = s.env := rfl

/-! `completeWithResult` -/

@[simp] theorem completeWithResult_cmd (v : Block) (s : State) : (completeWithResult v s).cmd = s.cmd := rfl
@[simp] theorem completeWithResult_status (v : Block) (s : State) : (completeWithResult v s).status = s.status.completed := rfl
@[simp] theorem completeWithResult_ctrl (v : Block) (s : State) : (completeWithResult v s).ctrl = s.ctrl := rfl
@[simp] theorem completeWithResult_opa (v : Block) (s : State) : (completeWithResult v s).opa = s.opa := rfl
@[simp] theorem completeWithResult_opb (v : Block) (s : State) : (completeWithResult v s).opb = s.opb := rfl
@[simp] theorem completeWithResult_result (v : Block) (s : State) : (completeWithResult v s).result = v := rfl
@[simp] theorem completeWithResult_rk0 (v : Block) (s : State) : (completeWithResult v s).rk0 = s.rk0 := rfl
@[simp] theorem completeWithResult_rk1 (v : Block) (s : State) : (completeWithResult v s).rk1 = s.rk1 := rfl
@[simp] theorem completeWithResult_rk2 (v : Block) (s : State) : (completeWithResult v s).rk2 = s.rk2 := rfl
@[simp] theorem completeWithResult_trials (v : Block) (s : State) : (completeWithResult v s).trials = s.trials := rfl
@[simp] theorem completeWithResult_seed (v : Block) (s : State) : (completeWithResult v s).seed = s.seed := rfl
@[simp] theorem completeWithResult_statB (v : Block) (s : State) : (completeWithResult v s).statB = s.statB := rfl
@[simp] theorem completeWithResult_statE (v : Block) (s : State) : (completeWithResult v s).statE = s.statE := rfl
@[simp] theorem completeWithResult_trec (v : Block) (s : State) : (completeWithResult v s).trec = s.trec := rfl
@[simp] theorem completeWithResult_latch (v : Block) (s : State) : (completeWithResult v s).latch = s.latch := rfl
@[simp] theorem completeWithResult_env (v : Block) (s : State) : (completeWithResult v s).env = s.env := rfl

/-! `completeWithNibble` -/

@[simp] theorem completeWithNibble_cmd (v : Nibble) (s : State) : (completeWithNibble v s).cmd = s.cmd := rfl
@[simp] theorem completeWithNibble_status (v : Nibble) (s : State) : (completeWithNibble v s).status = s.status.completed := rfl
@[simp] theorem completeWithNibble_ctrl (v : Nibble) (s : State) : (completeWithNibble v s).ctrl = s.ctrl := rfl
@[simp] theorem completeWithNibble_opa (v : Nibble) (s : State) : (completeWithNibble v s).opa = s.opa := rfl
@[simp] theorem completeWithNibble_opb (v : Nibble) (s : State) : (completeWithNibble v s).opb = s.opb := rfl
@[simp] theorem completeWithNibble_result (v : Nibble) (s : State) : (completeWithNibble v s).result = v.setWidth 16 := rfl
@[simp] theorem completeWithNibble_rk0 (v : Nibble) (s : State) : (completeWithNibble v s).rk0 = s.rk0 := rfl
@[simp] theorem completeWithNibble_rk1 (v : Nibble) (s : State) : (completeWithNibble v s).rk1 = s.rk1 := rfl
@[simp] theorem completeWithNibble_rk2 (v : Nibble) (s : State) : (completeWithNibble v s).rk2 = s.rk2 := rfl
@[simp] theorem completeWithNibble_trials (v : Nibble) (s : State) : (completeWithNibble v s).trials = s.trials := rfl
@[simp] theorem completeWithNibble_seed (v : Nibble) (s : State) : (completeWithNibble v s).seed = s.seed := rfl
@[simp] theorem completeWithNibble_statB (v : Nibble) (s : State) : (completeWithNibble v s).statB = s.statB := rfl
@[simp] theorem completeWithNibble_statE (v : Nibble) (s : State) : (completeWithNibble v s).statE = s.statE := rfl
@[simp] theorem completeWithNibble_trec (v : Nibble) (s : State) : (completeWithNibble v s).trec = s.trec := rfl
@[simp] theorem completeWithNibble_latch (v : Nibble) (s : State) : (completeWithNibble v s).latch = s.latch := rfl
@[simp] theorem completeWithNibble_env (v : Nibble) (s : State) : (completeWithNibble v s).env = s.env := rfl

/-! `completeWithKeys` -/

@[simp] theorem completeWithKeys_cmd (k0 k1 k2 : Block) (s : State) : (completeWithKeys k0 k1 k2 s).cmd = s.cmd := rfl
@[simp] theorem completeWithKeys_status (k0 k1 k2 : Block) (s : State) : (completeWithKeys k0 k1 k2 s).status = s.status.completed := rfl
@[simp] theorem completeWithKeys_ctrl (k0 k1 k2 : Block) (s : State) : (completeWithKeys k0 k1 k2 s).ctrl = s.ctrl := rfl
@[simp] theorem completeWithKeys_opa (k0 k1 k2 : Block) (s : State) : (completeWithKeys k0 k1 k2 s).opa = s.opa := rfl
@[simp] theorem completeWithKeys_opb (k0 k1 k2 : Block) (s : State) : (completeWithKeys k0 k1 k2 s).opb = s.opb := rfl
@[simp] theorem completeWithKeys_result (k0 k1 k2 : Block) (s : State) : (completeWithKeys k0 k1 k2 s).result = s.result := rfl
@[simp] theorem completeWithKeys_rk0 (k0 k1 k2 : Block) (s : State) : (completeWithKeys k0 k1 k2 s).rk0 = k0 := rfl
@[simp] theorem completeWithKeys_rk1 (k0 k1 k2 : Block) (s : State) : (completeWithKeys k0 k1 k2 s).rk1 = k1 := rfl
@[simp] theorem completeWithKeys_rk2 (k0 k1 k2 : Block) (s : State) : (completeWithKeys k0 k1 k2 s).rk2 = k2 := rfl
@[simp] theorem completeWithKeys_trials (k0 k1 k2 : Block) (s : State) : (completeWithKeys k0 k1 k2 s).trials = s.trials := rfl
@[simp] theorem completeWithKeys_seed (k0 k1 k2 : Block) (s : State) : (completeWithKeys k0 k1 k2 s).seed = s.seed := rfl
@[simp] theorem completeWithKeys_statB (k0 k1 k2 : Block) (s : State) : (completeWithKeys k0 k1 k2 s).statB = s.statB := rfl
@[simp] theorem completeWithKeys_statE (k0 k1 k2 : Block) (s : State) : (completeWithKeys k0 k1 k2 s).statE = s.statE := rfl
@[simp] theorem completeWithKeys_trec (k0 k1 k2 : Block) (s : State) : (completeWithKeys k0 k1 k2 s).trec = s.trec := rfl
@[simp] theorem completeWithKeys_latch (k0 k1 k2 : Block) (s : State) : (completeWithKeys k0 k1 k2 s).latch = s.latch := rfl
@[simp] theorem completeWithKeys_env (k0 k1 k2 : Block) (s : State) : (completeWithKeys k0 k1 k2 s).env = s.env := rfl

/-! `raiseCmdError` -/

@[simp] theorem raiseCmdError_cmd (e : CmdError) (s : State) : (raiseCmdError e s).cmd = s.cmd := rfl
@[simp] theorem raiseCmdError_status (e : CmdError) (s : State) : (raiseCmdError e s).status = s.status.failed e := rfl
@[simp] theorem raiseCmdError_ctrl (e : CmdError) (s : State) : (raiseCmdError e s).ctrl = s.ctrl := rfl
@[simp] theorem raiseCmdError_opa (e : CmdError) (s : State) : (raiseCmdError e s).opa = s.opa := rfl
@[simp] theorem raiseCmdError_opb (e : CmdError) (s : State) : (raiseCmdError e s).opb = s.opb := rfl
@[simp] theorem raiseCmdError_result (e : CmdError) (s : State) : (raiseCmdError e s).result = s.result := rfl
@[simp] theorem raiseCmdError_rk0 (e : CmdError) (s : State) : (raiseCmdError e s).rk0 = s.rk0 := rfl
@[simp] theorem raiseCmdError_rk1 (e : CmdError) (s : State) : (raiseCmdError e s).rk1 = s.rk1 := rfl
@[simp] theorem raiseCmdError_rk2 (e : CmdError) (s : State) : (raiseCmdError e s).rk2 = s.rk2 := rfl
@[simp] theorem raiseCmdError_trials (e : CmdError) (s : State) : (raiseCmdError e s).trials = s.trials := rfl
@[simp] theorem raiseCmdError_seed (e : CmdError) (s : State) : (raiseCmdError e s).seed = s.seed := rfl
@[simp] theorem raiseCmdError_statB (e : CmdError) (s : State) : (raiseCmdError e s).statB = s.statB := rfl
@[simp] theorem raiseCmdError_statE (e : CmdError) (s : State) : (raiseCmdError e s).statE = s.statE := rfl
@[simp] theorem raiseCmdError_trec (e : CmdError) (s : State) : (raiseCmdError e s).trec = s.trec := rfl
@[simp] theorem raiseCmdError_latch (e : CmdError) (s : State) : (raiseCmdError e s).latch = s.latch := rfl
@[simp] theorem raiseCmdError_env (e : CmdError) (s : State) : (raiseCmdError e s).env = s.env := rfl

/-! `resetCore` -/

@[simp] theorem resetCore_cmd (s : State) : (resetCore s).cmd = State.reset.cmd := rfl
@[simp] theorem resetCore_status (s : State) : (resetCore s).status = State.reset.status := rfl
@[simp] theorem resetCore_ctrl (s : State) : (resetCore s).ctrl = State.reset.ctrl := rfl
@[simp] theorem resetCore_opa (s : State) : (resetCore s).opa = State.reset.opa := rfl
@[simp] theorem resetCore_opb (s : State) : (resetCore s).opb = State.reset.opb := rfl
@[simp] theorem resetCore_result (s : State) : (resetCore s).result = State.reset.result := rfl
@[simp] theorem resetCore_rk0 (s : State) : (resetCore s).rk0 = State.reset.rk0 := rfl
@[simp] theorem resetCore_rk1 (s : State) : (resetCore s).rk1 = State.reset.rk1 := rfl
@[simp] theorem resetCore_rk2 (s : State) : (resetCore s).rk2 = State.reset.rk2 := rfl
@[simp] theorem resetCore_trials (s : State) : (resetCore s).trials = State.reset.trials := rfl
@[simp] theorem resetCore_seed (s : State) : (resetCore s).seed = State.reset.seed := rfl
@[simp] theorem resetCore_statB (s : State) : (resetCore s).statB = State.reset.statB := rfl
@[simp] theorem resetCore_statE (s : State) : (resetCore s).statE = State.reset.statE := rfl
@[simp] theorem resetCore_trec (s : State) : (resetCore s).trec = State.reset.trec := rfl
@[simp] theorem resetCore_latch (s : State) : (resetCore s).latch = State.reset.latch := rfl
@[simp] theorem resetCore_env (s : State) : (resetCore s).env = s.env := rfl

/-! `answer` -/

@[simp] theorem answer_cmd (a : HostAddr) (v : BusWord) (s : State) : (answer a v s).cmd = s.cmd := rfl
@[simp] theorem answer_status (a : HostAddr) (v : BusWord) (s : State) : (answer a v s).status = s.status := rfl
@[simp] theorem answer_ctrl (a : HostAddr) (v : BusWord) (s : State) : (answer a v s).ctrl = s.ctrl := rfl
@[simp] theorem answer_opa (a : HostAddr) (v : BusWord) (s : State) : (answer a v s).opa = s.opa := rfl
@[simp] theorem answer_opb (a : HostAddr) (v : BusWord) (s : State) : (answer a v s).opb = s.opb := rfl
@[simp] theorem answer_result (a : HostAddr) (v : BusWord) (s : State) : (answer a v s).result = s.result := rfl
@[simp] theorem answer_rk0 (a : HostAddr) (v : BusWord) (s : State) : (answer a v s).rk0 = s.rk0 := rfl
@[simp] theorem answer_rk1 (a : HostAddr) (v : BusWord) (s : State) : (answer a v s).rk1 = s.rk1 := rfl
@[simp] theorem answer_rk2 (a : HostAddr) (v : BusWord) (s : State) : (answer a v s).rk2 = s.rk2 := rfl
@[simp] theorem answer_trials (a : HostAddr) (v : BusWord) (s : State) : (answer a v s).trials = s.trials := rfl
@[simp] theorem answer_seed (a : HostAddr) (v : BusWord) (s : State) : (answer a v s).seed = s.seed := rfl
@[simp] theorem answer_statB (a : HostAddr) (v : BusWord) (s : State) : (answer a v s).statB = s.statB := rfl
@[simp] theorem answer_statE (a : HostAddr) (v : BusWord) (s : State) : (answer a v s).statE = s.statE := rfl
@[simp] theorem answer_trec (a : HostAddr) (v : BusWord) (s : State) : (answer a v s).trec = s.trec := rfl
@[simp] theorem answer_latch (a : HostAddr) (v : BusWord) (s : State) : (answer a v s).latch = s.latch := rfl
@[simp] theorem answer_env (a : HostAddr) (v : BusWord) (s : State) : (answer a v s).env = { s.env with answers := ⟨a, v⟩ :: s.env.answers } := rfl

/-! `answerFree` -/

@[simp] theorem answerFree_cmd (a : HostAddr) (s : State) : (answerFree a s).cmd = s.cmd := rfl
@[simp] theorem answerFree_status (a : HostAddr) (s : State) : (answerFree a s).status = s.status := rfl
@[simp] theorem answerFree_ctrl (a : HostAddr) (s : State) : (answerFree a s).ctrl = s.ctrl := rfl
@[simp] theorem answerFree_opa (a : HostAddr) (s : State) : (answerFree a s).opa = s.opa := rfl
@[simp] theorem answerFree_opb (a : HostAddr) (s : State) : (answerFree a s).opb = s.opb := rfl
@[simp] theorem answerFree_result (a : HostAddr) (s : State) : (answerFree a s).result = s.result := rfl
@[simp] theorem answerFree_rk0 (a : HostAddr) (s : State) : (answerFree a s).rk0 = s.rk0 := rfl
@[simp] theorem answerFree_rk1 (a : HostAddr) (s : State) : (answerFree a s).rk1 = s.rk1 := rfl
@[simp] theorem answerFree_rk2 (a : HostAddr) (s : State) : (answerFree a s).rk2 = s.rk2 := rfl
@[simp] theorem answerFree_trials (a : HostAddr) (s : State) : (answerFree a s).trials = s.trials := rfl
@[simp] theorem answerFree_seed (a : HostAddr) (s : State) : (answerFree a s).seed = s.seed := rfl
@[simp] theorem answerFree_statB (a : HostAddr) (s : State) : (answerFree a s).statB = s.statB := rfl
@[simp] theorem answerFree_statE (a : HostAddr) (s : State) : (answerFree a s).statE = s.statE := rfl
@[simp] theorem answerFree_trec (a : HostAddr) (s : State) : (answerFree a s).trec = s.trec := rfl
@[simp] theorem answerFree_latch (a : HostAddr) (s : State) : (answerFree a s).latch = s.latch := rfl
@[simp] theorem answerFree_env (a : HostAddr) (s : State) : (answerFree a s).env = { s.env with answers := ⟨a, Config.freeWord s.env.draws⟩ :: s.env.answers, draws := s.env.draws + 1 } := rfl

/-! `setPending` -/

@[simp] theorem setPending_cmd (ops : List HostOp) (s : State) : (setPending ops s).cmd = s.cmd := rfl
@[simp] theorem setPending_status (ops : List HostOp) (s : State) : (setPending ops s).status = s.status := rfl
@[simp] theorem setPending_ctrl (ops : List HostOp) (s : State) : (setPending ops s).ctrl = s.ctrl := rfl
@[simp] theorem setPending_opa (ops : List HostOp) (s : State) : (setPending ops s).opa = s.opa := rfl
@[simp] theorem setPending_opb (ops : List HostOp) (s : State) : (setPending ops s).opb = s.opb := rfl
@[simp] theorem setPending_result (ops : List HostOp) (s : State) : (setPending ops s).result = s.result := rfl
@[simp] theorem setPending_rk0 (ops : List HostOp) (s : State) : (setPending ops s).rk0 = s.rk0 := rfl
@[simp] theorem setPending_rk1 (ops : List HostOp) (s : State) : (setPending ops s).rk1 = s.rk1 := rfl
@[simp] theorem setPending_rk2 (ops : List HostOp) (s : State) : (setPending ops s).rk2 = s.rk2 := rfl
@[simp] theorem setPending_trials (ops : List HostOp) (s : State) : (setPending ops s).trials = s.trials := rfl
@[simp] theorem setPending_seed (ops : List HostOp) (s : State) : (setPending ops s).seed = s.seed := rfl
@[simp] theorem setPending_statB (ops : List HostOp) (s : State) : (setPending ops s).statB = s.statB := rfl
@[simp] theorem setPending_statE (ops : List HostOp) (s : State) : (setPending ops s).statE = s.statE := rfl
@[simp] theorem setPending_trec (ops : List HostOp) (s : State) : (setPending ops s).trec = s.trec := rfl
@[simp] theorem setPending_latch (ops : List HostOp) (s : State) : (setPending ops s).latch = s.latch := rfl
@[simp] theorem setPending_env (ops : List HostOp) (s : State) : (setPending ops s).env = { s.env with pending := ops } := rfl

/-! `setTurns` -/

@[simp] theorem setTurns_cmd (ts : List Turn) (s : State) : (setTurns ts s).cmd = s.cmd := rfl
@[simp] theorem setTurns_status (ts : List Turn) (s : State) : (setTurns ts s).status = s.status := rfl
@[simp] theorem setTurns_ctrl (ts : List Turn) (s : State) : (setTurns ts s).ctrl = s.ctrl := rfl
@[simp] theorem setTurns_opa (ts : List Turn) (s : State) : (setTurns ts s).opa = s.opa := rfl
@[simp] theorem setTurns_opb (ts : List Turn) (s : State) : (setTurns ts s).opb = s.opb := rfl
@[simp] theorem setTurns_result (ts : List Turn) (s : State) : (setTurns ts s).result = s.result := rfl
@[simp] theorem setTurns_rk0 (ts : List Turn) (s : State) : (setTurns ts s).rk0 = s.rk0 := rfl
@[simp] theorem setTurns_rk1 (ts : List Turn) (s : State) : (setTurns ts s).rk1 = s.rk1 := rfl
@[simp] theorem setTurns_rk2 (ts : List Turn) (s : State) : (setTurns ts s).rk2 = s.rk2 := rfl
@[simp] theorem setTurns_trials (ts : List Turn) (s : State) : (setTurns ts s).trials = s.trials := rfl
@[simp] theorem setTurns_seed (ts : List Turn) (s : State) : (setTurns ts s).seed = s.seed := rfl
@[simp] theorem setTurns_statB (ts : List Turn) (s : State) : (setTurns ts s).statB = s.statB := rfl
@[simp] theorem setTurns_statE (ts : List Turn) (s : State) : (setTurns ts s).statE = s.statE := rfl
@[simp] theorem setTurns_trec (ts : List Turn) (s : State) : (setTurns ts s).trec = s.trec := rfl
@[simp] theorem setTurns_latch (ts : List Turn) (s : State) : (setTurns ts s).latch = s.latch := rfl
@[simp] theorem setTurns_env (ts : List Turn) (s : State) : (setTurns ts s).env = { s.env with turns := ts } := rfl

/-! `writeHarness` -/

@[simp] theorem writeHarness_cmd (x : Experiment) (rs : List TrialRecord) (s : State) : (writeHarness x rs s).cmd = s.cmd := rfl
@[simp] theorem writeHarness_status (x : Experiment) (rs : List TrialRecord) (s : State) : (writeHarness x rs s).status = { s.status with lastExp := experimentCode x } := rfl
@[simp] theorem writeHarness_ctrl (x : Experiment) (rs : List TrialRecord) (s : State) : (writeHarness x rs s).ctrl = s.ctrl := rfl
@[simp] theorem writeHarness_opa (x : Experiment) (rs : List TrialRecord) (s : State) : (writeHarness x rs s).opa = s.opa := rfl
@[simp] theorem writeHarness_opb (x : Experiment) (rs : List TrialRecord) (s : State) : (writeHarness x rs s).opb = s.opb := rfl
@[simp] theorem writeHarness_result (x : Experiment) (rs : List TrialRecord) (s : State) : (writeHarness x rs s).result = s.result := rfl
@[simp] theorem writeHarness_rk0 (x : Experiment) (rs : List TrialRecord) (s : State) : (writeHarness x rs s).rk0 = s.rk0 := rfl
@[simp] theorem writeHarness_rk1 (x : Experiment) (rs : List TrialRecord) (s : State) : (writeHarness x rs s).rk1 = s.rk1 := rfl
@[simp] theorem writeHarness_rk2 (x : Experiment) (rs : List TrialRecord) (s : State) : (writeHarness x rs s).rk2 = s.rk2 := rfl
@[simp] theorem writeHarness_trials (x : Experiment) (rs : List TrialRecord) (s : State) : (writeHarness x rs s).trials = s.trials := rfl
@[simp] theorem writeHarness_seed (x : Experiment) (rs : List TrialRecord) (s : State) : (writeHarness x rs s).seed = s.seed := rfl
@[simp] theorem writeHarness_statB (x : Experiment) (rs : List TrialRecord) (s : State) : (writeHarness x rs s).statB = statsOf (rs.map TrialRecord.dB) := rfl
@[simp] theorem writeHarness_statE (x : Experiment) (rs : List TrialRecord) (s : State) : (writeHarness x rs s).statE = statsOf (rs.map TrialRecord.dE) := rfl
@[simp] theorem writeHarness_trec (x : Experiment) (rs : List TrialRecord) (s : State) : (writeHarness x rs s).trec = writeRecords s.trec rs := rfl
@[simp] theorem writeHarness_latch (x : Experiment) (rs : List TrialRecord) (s : State) : (writeHarness x rs s).latch = s.latch := rfl
@[simp] theorem writeHarness_env (x : Experiment) (rs : List TrialRecord) (s : State) : (writeHarness x rs s).env = s.env := rfl

/-! STATUS -/

@[simp] theorem status_issued_busy (st : Status) : st.issued.busy = true := rfl
@[simp] theorem status_issued_done (st : Status) : st.issued.done = false := rfl
@[simp] theorem status_issued_err (st : Status) : st.issued.err = false := rfl
@[simp] theorem status_issued_errcode (st : Status) : st.issued.errcode = 0 := rfl
@[simp] theorem status_issued_lastExp (st : Status) : st.issued.lastExp = st.lastExp := rfl
@[simp] theorem status_completed_busy (st : Status) : st.completed.busy = false := rfl
@[simp] theorem status_completed_done (st : Status) : st.completed.done = true := rfl
@[simp] theorem status_completed_err (st : Status) : st.completed.err = st.err := rfl
@[simp] theorem status_completed_errcode (st : Status) : st.completed.errcode = st.errcode := rfl
@[simp] theorem status_completed_lastExp (st : Status) : st.completed.lastExp = st.lastExp := rfl
@[simp] theorem status_failed_busy (e : CmdError) (st : Status) : (st.failed e).busy = false := rfl
@[simp] theorem status_failed_done (e : CmdError) (st : Status) : (st.failed e).done = true := rfl
@[simp] theorem status_failed_err (e : CmdError) (st : Status) : (st.failed e).err = true := rfl
@[simp] theorem status_failed_errcode (e : CmdError) (st : Status) : (st.failed e).errcode = errorCode e := rfl
@[simp] theorem status_failed_lastExp (e : CmdError) (st : Status) : (st.failed e).lastExp = st.lastExp := rfl

end Sys2Proof.Machine
end

