-- ==== Sys2Proof/Laws/Ops.lean ====
section
/-! SUPPORT. One lemma per shared operation that says everything it does: each is `s` with the fields it writes, and no other. -/

namespace Sys2Proof.Machine

/-- Issue writes CMD, LATCH and STATUS (20_memory.md R59). -/
theorem issue_eq (v : BusWord) (s : State) :
    issue v s = { s with
      cmd := v
      latch := { cmd := v, a := s.opa, b := s.opb, ctrl := s.ctrl, trials := s.trials, seed := s.seed }
      status := { busy := true, done := false, err := false, errcode := 0, lastExp := s.status.lastExp } } := rfl

/-- Completion writes BUSY and DONE (30_encoding.md R78). -/
theorem complete_eq (s : State) : complete s = { s with status := { s.status with busy := false, done := true } } := rfl

/-- A command error writes BUSY, DONE, ERR and ERRCODE (60_exceptions.md R227). -/
theorem raiseCmdError_eq (e : CmdError) (s : State) :
    raiseCmdError e s =
      { s with status := { busy := false, done := true, err := true, errcode := errorCode e, lastExp := s.status.lastExp } } := rfl

/-- A result command writes RESULT and completes (10_state.md R35). -/
theorem completeWithResult_eq (v : Block) (s : State) :
    completeWithResult v s = { s with result := v, status := { s.status with busy := false, done := true } } := rfl

/-- A command with a 4-bit result writes it zero-extended (10_state.md R35). -/
theorem completeWithNibble_eq (v : Nibble) (s : State) : completeWithNibble v s = completeWithResult (v.setWidth 16) s := rfl

/-- KEYEXP writes RK0 to RK2 and completes (10_state.md R36). -/
theorem completeWithKeys_eq (k0 k1 k2 : Block) (s : State) :
    completeWithKeys k0 k1 k2 s =
      { s with rk0 := k0, rk1 := k1, rk2 := k2, status := { s.status with busy := false, done := true } } := rfl

/-- Reset gives every register its reset value and leaves the environment (70_reset_and_hazards.md R250). -/
theorem resetCore_eq (s : State) : resetCore s = { State.reset with env := s.env } := rfl

/-- An answer touches the environment only. -/
theorem answer_eq (a : HostAddr) (v : BusWord) (s : State) :
    answer a v s = { s with env := { s.env with answers := ⟨a, v⟩ :: s.env.answers } } := rfl

/-- A free answer touches the environment only. -/
theorem answerFree_eq (a : HostAddr) (s : State) :
    answerFree a s = { s with env :=
      { s.env with answers := ⟨a, Config.freeWord s.env.draws⟩ :: s.env.answers, draws := s.env.draws + 1 } } := rfl

/-- The code of a command error is never 0 (60_exceptions.md R222). -/
theorem errorCode_ne_zero (e : CmdError) : errorCode e ≠ 0 := by cases e <;> decide

/-- The code of a command error is at most 3 (60_exceptions.md R222). -/
theorem errorCode_le (e : CmdError) : (errorCode e).toNat ≤ 3 := by cases e <;> decide

/-- LAST_EXP of an experiment is neither 0 nor 3 (10_state.md R31). -/
theorem experimentCode_ne (x : Experiment) : experimentCode x ≠ 0 ∧ experimentCode x ≠ 3 := by cases x <;> decide

/-- The two experiments have different codes. -/
theorem experimentCode_inj (x y : Experiment) (h : experimentCode x = experimentCode y) : x = y := by
  cases x <;> cases y <;> first | rfl | exact absurd h (by decide)

end Sys2Proof.Machine
end

