-- ==== Sys2Proof/Laws/Bus.lean ====
section
/-! SUPPORT. Everything the bus operations can do. -/

namespace Sys2Proof.Machine

/-- What the register map gives is what stands in it (20_memory.md R52). -/
theorem registerAt_addr (r : Register) : registerAt (registerAddr r) = some r := by cases r <;> decide

/-- An address that names a register is that register's. -/
theorem registerAddr_of_registerAt (a : HostAddr) (r : Register) (h : registerAt a = some r) : registerAddr r = a := by
  simpa using List.find?_some h

/-- An access that reaches something is 32-bit, aligned and mapped. -/
theorem accessTarget_some (tMax : Nat) (a : HostAddr) (w : AccessWidth) (b : BusTarget) (h : accessTarget tMax a w = some b) :
    w = .word ∧ a.extractLsb' 0 2 = 0 ∧ busTarget tMax a = some b := by
  unfold accessTarget at h
  split at h
  · next hw => exact ⟨hw.1, hw.2, h⟩
  · cases h

/-- A host write changes nothing, or writes a register. -/
theorem hostWriteUnder_next (tMax : Nat) (a : HostAddr) (w : AccessWidth) (v : BusWord) (s t : State)
    (h : hostWriteUnder tMax a w v s = .next t) : t = s ∨ ∃ r, registerAddr r = a ∧ t = writeRegister r v s := by
  unfold hostWriteUnder at h
  split at h
  · cases h
  · next r hr =>
    obtain ⟨-, -, hb⟩ := accessTarget_some _ _ _ _ hr
    refine .inr ⟨r, registerAddr_of_registerAt a r ?_, by simpa using h.symm⟩
    unfold busTarget at hb
    split at hb
    · simp_all
    · split at hb <;> simp at hb
  · exact .inl (by simpa using h.symm)

/-- A host read answers with some word, or with a free one while the core is busy. -/
theorem hostReadUnder_next (tMax : Nat) (a : HostAddr) (w : AccessWidth) (s t : State)
    (h : hostReadUnder tMax a w s = .next t) : (∃ v, t = answer a v s) ∨ (s.status.busy = true ∧ t = answerFree a s) := by
  unfold hostReadUnder at h
  split at h
  · cases h
  · split at h
    · next hb => exact .inr ⟨by simp_all, by simpa using h.symm⟩
    · exact .inl ⟨_, by simpa using h.symm⟩
  · split at h
    · next hb => exact .inr ⟨hb, by simpa using h.symm⟩
    · split at h
      · exact .inl ⟨_, by simpa using h.symm⟩
      · cases h

/-- A register write is ignored, issues a command while idle, or stores operands. -/
theorem writeRegister_cases (r : Register) (v : BusWord) (s : State) :
    writeRegister r v s = s ∨ (r = .cmd ∧ s.status.busy = false ∧ writeRegister r v s = issue v s) ∨
    ∃ c a b t d, writeRegister r v s = { s with ctrl := c, opa := a, opb := b, trials := t, seed := d } := by
  cases r <;> try exact .inl rfl
  case cmd =>
    unfold writeRegister
    cases h : s.status.busy
    · exact .inr (.inl ⟨rfl, rfl, by simp⟩)
    · exact .inl (by simp)
  all_goals exact .inr (.inr ⟨_, _, _, _, _, rfl⟩)

/-- A register write never touches the environment. -/
theorem writeRegister_env (r : Register) (v : BusWord) (s : State) : (writeRegister r v s).env = s.env := by
  rcases writeRegister_cases r v s with h | ⟨-, -, h⟩ | ⟨c, a, b, t, d, h⟩ <;> rw [h]
  rfl

end Sys2Proof.Machine
end

