-- ==== Sys2Proof/Laws/Memory.lean ====
section
/-! SUPPORT. The laws of memory: the canonical form is kept, a read after a write, and the words of TREC. -/

namespace Sys2Proof.Machine

theorem readByte_nil (a : Nat) : Memory.readByte [] a = none := rfl

theorem readByte_cons (c : Host.Cell) (m : Memory) (a : Nat) :
    Memory.readByte (c :: m) a = if a = c.1 then some c.2 else Memory.readByte m a := by
  obtain ⟨k, v⟩ := c
  simp only [Memory.readByte, List.lookup]
  by_cases h : a = k
  · simp [h]
  · simp [h, beq_eq_false_iff_ne.mpr h]

theorem readByte_append (m n : Memory) (a : Nat) :
    Memory.readByte (m ++ n) a = (Memory.readByte m a).or (Memory.readByte n a) := by
  induction m with
  | nil => simp [readByte_nil]
  | cons c m ih =>
    rw [List.cons_append, readByte_cons, readByte_cons, ih]
    split <;> simp

/-- Filtering by an address test keeps the bytes of the addresses that pass. -/
theorem readByte_filter (p : Nat → Bool) (m : Memory) (a : Nat) :
    Memory.readByte (m.filter (fun c => p c.1)) a = if p a then Memory.readByte m a else none := by
  induction m with
  | nil => simp [readByte_nil]
  | cons c m ih =>
    rw [List.filter_cons, readByte_cons]
    split
    · rw [readByte_cons, ih]
      split
      · simp_all
      · rfl
    · rw [ih]
      split
      · split
        · simp_all
        · rfl
      · rfl

theorem readByte_cellsFrom (bs : List Byte) (base a : Nat) :
    Memory.readByte (cellsFrom base bs) a = if base ≤ a then bs[a - base]? else none := by
  induction bs generalizing base with
  | nil => simp [cellsFrom, readByte_nil]
  | cons b bs ih =>
    rw [cellsFrom, readByte_cons, ih]
    by_cases h : a = base
    · simp [h]
    · by_cases h1 : base ≤ a
      · have h2 : base + 1 ≤ a := by omega
        have h3 : a - base = (a - (base + 1)) + 1 := by omega
        simp [h, h1, h2, h3]
      · have h2 : ¬base + 1 ≤ a := by omega
        simp [h, h1, h2]

/-- A read after a write of consecutive bytes: the byte written inside them, what was there outside. -/
theorem readByte_writeBytes (m : Memory) (base : Nat) (bs : List Byte) (a : Nat) :
    Memory.readByte (Memory.writeBytes m base bs) a =
      if base ≤ a ∧ a < base + bs.length then bs[a - base]? else Memory.readByte m a := by
  rw [Memory.writeBytes, readByte_append, readByte_append, readByte_cellsFrom,
    readByte_filter (fun k => decide (k < base)), readByte_filter (fun k => decide (base + bs.length ≤ k))]
  by_cases h1 : base ≤ a
  · by_cases h2 : a < base + bs.length
    · have h3 : ¬a < base := by omega
      have h4 : a - base < bs.length := by omega
      simp [h1, h2, h3, h4]
    · have h3 : ¬a < base := by omega
      have h4 : bs.length ≤ a - base := by omega
      have h5 : base + bs.length ≤ a := by omega
      simp [h1, h2, h3, h5, h4]
  · have h3 : a < base := by omega
    have h5 : ¬base + bs.length ≤ a := by omega
    simp [h1, h3, h5]

theorem cellsFrom_range (bs : List Byte) (base : Nat) :
    ∀ c ∈ cellsFrom base bs, base ≤ c.1 ∧ c.1 < base + bs.length := by
  induction bs generalizing base with
  | nil => simp [cellsFrom]
  | cons b bs ih =>
    intro c hc
    rw [cellsFrom, List.mem_cons] at hc
    rcases hc with rfl | hc
    · simp
    · have := ih (base + 1) c hc
      simp only [List.length_cons]
      omega

theorem cellsFrom_wf (bs : List Byte) (base : Nat) : Memory.wf (cellsFrom base bs) := by
  induction bs generalizing base with
  | nil => simp [cellsFrom]
  | cons b bs ih =>
    refine List.pairwise_cons.mpr ⟨fun c hc => ?_, ih (base + 1)⟩
    have := cellsFrom_range bs (base + 1) c hc
    show base < c.1
    omega

/-- Writing keeps the canonical form. -/
theorem writeBytes_wf (m : Memory) (base : Nat) (bs : List Byte) (h : Memory.wf m) :
    Memory.wf (Memory.writeBytes m base bs) := by
  have hm : ∀ c ∈ m.filter (fun c => decide (c.1 < base)), c.1 < base := fun c hc => by simpa using (List.mem_filter.mp hc).2
  have hn : ∀ c ∈ m.filter (fun c => decide (base + bs.length ≤ c.1)), base + bs.length ≤ c.1 :=
    fun c hc => by simpa using (List.mem_filter.mp hc).2
  refine List.pairwise_append.mpr ⟨h.sublist List.filter_sublist,
    List.pairwise_append.mpr ⟨cellsFrom_wf bs base, h.sublist List.filter_sublist, ?_⟩, ?_⟩
  · intro c hc d hd
    have := cellsFrom_range bs base c hc
    have := hn d hd
    omega
  · intro c hc d hd
    have h1 := hm c hc
    rcases List.mem_append.mp hd with hd | hd
    · have := cellsFrom_range bs base d hd
      omega
    · have := hn d hd
      omega

/-- A cell after a write was written by it or was there before. -/
theorem mem_writeBytes (m : Memory) (base : Nat) (bs : List Byte) (c : Host.Cell) (h : c ∈ Memory.writeBytes m base bs) :
    c ∈ m ∨ (base ≤ c.1 ∧ c.1 < base + bs.length) := by
  rcases List.mem_append.mp h with h | h
  · exact .inl (List.mem_filter.mp h).1
  · rcases List.mem_append.mp h with h | h
    · exact .inr (cellsFrom_range bs base c h)
    · exact .inl (List.mem_filter.mp h).1

/-- The bytes of a word make the word. -/
theorem bytesWord_wordBytes (w : BusWord) :
    bytesWord (w.extractLsb' 0 8) (w.extractLsb' 8 8) (w.extractLsb' 16 8) (w.extractLsb' 24 8) = w := by
  refine BitVec.eq_of_getLsbD_eq fun i hi => ?_
  simp only [bytesWord, BitVec.getLsbD_append, BitVec.getLsbD_extractLsb']
  split
  · simp_all
  · split
    · rw [decide_eq_true (by omega), Bool.true_and]; congr 1; omega
    · split
      · rw [decide_eq_true (by omega), Bool.true_and]; congr 1; omega
      · rw [decide_eq_true (by omega), Bool.true_and]; congr 1; omega

/-- A word reads as some value exactly when its four bytes do, and then as the word of those bytes. -/
theorem readWord_eq_some (m : Memory) (a : Nat) (w : BusWord) :
    Memory.readWord m a = some w ↔ ∃ b0 b1 b2 b3, Memory.readByte m a = some b0 ∧ Memory.readByte m (a + 1) = some b1 ∧
      Memory.readByte m (a + 2) = some b2 ∧ Memory.readByte m (a + 3) = some b3 ∧ w = bytesWord b0 b1 b2 b3 := by
  unfold Memory.readWord
  constructor
  · intro h
    split at h
    · next b0 b1 b2 b3 h0 h1 h2 h3 => exact ⟨b0, b1, b2, b3, h0, h1, h2, h3, by simpa using h.symm⟩
    · cases h
  · rintro ⟨b0, b1, b2, b3, h0, h1, h2, h3, rfl⟩
    simp [h0, h1, h2, h3]

theorem recordBytes_length (r : TrialRecord) : (recordBytes r).length = 8 := rfl

theorem recordsBytes_length (rs : List TrialRecord) : (rs.flatMap recordBytes).length = 8 * rs.length := by
  induction rs with
  | nil => rfl
  | cons r rs ih => rw [List.flatMap_cons, List.length_append, ih, recordBytes_length, List.length_cons]; omega

/-- Byte `j` of record `i` among the bytes of a run's records. -/
theorem recordsBytes_getElem (rs : List TrialRecord) (i j : Nat) (hj : j < 8) :
    (rs.flatMap recordBytes)[8 * i + j]? = (rs[i]?).bind (fun r => (recordBytes r)[j]?) := by
  induction rs generalizing i with
  | nil => simp
  | cons r rs ih =>
    rw [List.flatMap_cons]
    cases i with
    | zero => rw [List.getElem?_append_left (by rw [recordBytes_length]; omega)]; simp
    | succ i =>
      rw [List.getElem?_append_right (by rw [recordBytes_length]; omega), recordBytes_length,
        show 8 * (i + 1) + j - 8 = 8 * i + j by omega, ih]
      simp

/-- What writing a run's records does to a byte of TREC: byte `j` of record `i` is that record's, or stays if there is none. -/
theorem readByte_writeRecords (m : Memory) (rs : List TrialRecord) (i j : Nat) (hj : j < 8) :
    Memory.readByte (writeRecords m rs) (trecBase + 8 * i + j) =
      match rs[i]? with
      | some r => (recordBytes r)[j]?
      | none => Memory.readByte m (trecBase + 8 * i + j) := by
  rw [writeRecords, readByte_writeBytes, recordsBytes_length]
  by_cases h : i < rs.length
  · rw [if_pos (by omega), show trecBase + 8 * i + j - trecBase = 8 * i + j by omega, recordsBytes_getElem rs i j hj,
      List.getElem?_eq_getElem h]
    rfl
  · rw [if_neg (by omega), List.getElem?_eq_none (by omega)]

/-- Outside the bytes of the records written, memory stays. -/
theorem readByte_writeRecords_outside (m : Memory) (rs : List TrialRecord) (a : Nat)
    (h : a < trecBase ∨ trecBase + 8 * rs.length ≤ a) : Memory.readByte (writeRecords m rs) a = Memory.readByte m a := by
  rw [writeRecords, readByte_writeBytes, recordsBytes_length, if_neg (by omega)]

/-- The records written are read back whole. -/
theorem readWord_writeRecords (m : Memory) (rs : List TrialRecord) (i : Nat) (r : TrialRecord) (h : rs[i]? = some r) :
    Memory.readWord (writeRecords m rs) (trecWord0 i) = some (recordWord0 r) ∧
    Memory.readWord (writeRecords m rs) (trecWord1 i) = some (recordWord1 r) := by
  have key := fun j (hj : j < 8) => readByte_writeRecords m rs i j hj
  simp only [h] at key
  constructor
  · refine (readWord_eq_some _ _ _).mpr ⟨_, _, _, _, key 0 (by omega), key 1 (by omega), key 2 (by omega), key 3 (by omega), ?_⟩
    exact (bytesWord_wordBytes _).symm
  · refine (readWord_eq_some _ _ _).mpr ⟨_, _, _, _, key 4 (by omega), key 5 (by omega), key 6 (by omega), key 7 (by omega), ?_⟩
    exact (bytesWord_wordBytes _).symm

end Sys2Proof.Machine
end

