-- ==== Sys2Proof/Laws/Step.lean ====
section
/-! SUPPORT. What a command and a step can do, said once: every invariant follows from `exec_cases` and `step_change`. -/

namespace Sys2Proof.Machine

/-- A harness command under any parameters ends with a trial-count error, or writes one run of 1 to T_MAX trials (44_harness.md R198). -/
theorem runHarness_cases (P : Params) (x : Experiment) (s : State) :
    (∃ e, checkTrials P (operandTrials s) = some e ∧ runHarness P x s = raiseCmdError e s) ∨
    (1 ≤ operandTrials s ∧ operandTrials s ≤ P.tMax ∧
      runHarness P x s = complete (writeHarness x (harness P x (operandTrials s) (operandSeed s) (operandForce0 s)) s)) := by
  unfold runHarness
  cases h : checkTrials P (operandTrials s) with
  | some e => exact .inl ⟨e, rfl, rfl⟩
  | none =>
    refine .inr ?_
    unfold checkTrials at h
    split at h
    · cases h
    · split at h
      · cases h
      · exact ⟨by omega, by omega, rfl⟩

/-- A command answers a next state always: a result, the round keys, or a harness command's (30_encoding.md R77, R78). -/
theorem exec_cases (i : Instr) (s : State) :
    (∃ v, exec i s = .next (completeWithResult v s)) ∨
    (∃ k0 k1 k2, exec i s = .next (completeWithKeys k0 k1 k2 s)) ∨
    ∃ x, exec i s = .next (runHarness Config.params x s) := by
  cases i <;> first
    | exact .inl ⟨_, rfl⟩
    | exact .inr (.inl ⟨_, _, _, rfl⟩)
    | exact .inr (.inr ⟨_, rfl⟩)

/-- The ways in which a step can change the core, with the environment left as it was. -/
inductive Change (s : State) : State → Prop
  | idle : Change s s
  | operands (c : Bool) (a b : Block) (t d : BusWord) : Change s { s with ctrl := c, opa := a, opb := b, trials := t, seed := d }
  | issued (v : BusWord) (idle : s.status.busy = false) : Change s (issue v s)
  | result (v : Block) (busy : s.status.busy = true) : Change s (completeWithResult v s)
  | keys (k0 k1 k2 : Block) (busy : s.status.busy = true) : Change s (completeWithKeys k0 k1 k2 s)
  | error (e : CmdError) (busy : s.status.busy = true) : Change s (raiseCmdError e s)
  | harness (x : Experiment) (t : Nat) (seed : BusWord) (force0 : Bool) (busy : s.status.busy = true) (pos : 1 ≤ t)
      (le : t ≤ Config.params.tMax) : Change s (complete (writeHarness x (harness Config.params x t seed force0) s))
  | reset : Change s (resetCore s)

/-- What a command in flight changes. -/
theorem exec_change (i : Instr) (s t : State) (busy : s.status.busy = true) (h : exec i s = .next t) : Change s t := by
  rcases exec_cases i s with ⟨v, h'⟩ | ⟨k0, k1, k2, h'⟩ | ⟨x, h'⟩ <;> rw [h'] at h <;> cases h
  · exact .result v busy
  · exact .keys k0 k1 k2 busy
  · rcases runHarness_cases Config.params x s with ⟨e, -, h⟩ | ⟨pos, le, h⟩ <;> rw [h]
    · exact .error e busy
    · exact .harness x _ _ _ busy pos le

/-- What CORE's move changes. -/
theorem coreMove_change (s t : State) (h : coreMove s = .next t) : Change s t := by
  unfold coreMove at h
  split at h
  · next busy =>
    split at h
    · exact exec_change _ s t busy h
    · cases h; exact .error _ busy
  · cases h; exact .idle

/-- CORE's move always answers a next state (70_reset_and_hazards.md R259). -/
theorem coreMove_next (s : State) : ∃ t, coreMove s = .next t := by
  unfold coreMove
  split
  · split
    · next i _ =>
      rcases exec_cases i s with ⟨v, h⟩ | ⟨k0, k1, k2, h⟩ | ⟨x, h⟩ <;> exact ⟨_, h⟩
    · exact ⟨_, rfl⟩
  · exact ⟨_, rfl⟩

/-- A change never touches the environment. -/
theorem change_env (s t : State) (h : Change s t) : t.env = s.env := by cases h <;> rfl

/-- A change does not depend on the environment. -/
theorem change_withEnv (s t : State) (e : Environment) (h : Change { s with env := e } t) :
    Change s { t with env := s.env } := by
  cases h with
  | idle => exact .idle
  | operands c a b t d => exact .operands c a b t d
  | issued v idle => exact .issued v idle
  | result v busy => exact .result v busy
  | keys k0 k1 k2 busy => exact .keys k0 k1 k2 busy
  | error e busy => exact .error e busy
  | harness x t seed force0 busy pos le => exact .harness x t seed force0 busy pos le
  | reset => exact .reset

/-- What a register write changes. -/
theorem writeRegister_change (r : Register) (v : BusWord) (s : State) : Change s (writeRegister r v s) := by
  rcases writeRegister_cases r v s with h | ⟨-, idle, h⟩ | ⟨c, a, b, t, d, h⟩ <;> rw [h]
  · exact .idle
  · exact .issued v idle
  · exact .operands c a b t d

/-- What HOST's move changes: a register it writes, and the environment. -/
theorem hostMove_change (s t : State) (h : hostMove s = .next t) : Change s { t with env := s.env } := by
  unfold hostMove at h
  split at h
  · cases h; exact .idle
  · next a w v rest _ =>
    rcases hostWriteUnder_next _ _ _ _ _ _ h with h | ⟨r, -, h⟩ <;> rw [h]
    · exact .idle
    · exact change_withEnv s _ _ (writeRegister_change r v (setPending rest s))
  · rcases hostReadUnder_next _ _ _ _ _ h with ⟨v, h⟩ | ⟨-, h⟩ <;> rw [h] <;> exact .idle
  · unfold hostPoll at h
    simp only [Host.Outcome.next.injEq] at h
    subst h
    split <;> exact .idle

/-- What a turn changes. -/
theorem turnMove_change (u : Turn) (s t : State) (h : turnMove u s = .next t) : Change s { t with env := s.env } := by
  cases u with
  | host => exact hostMove_change s t h
  | core =>
    have hc := coreMove_change s t h
    rw [← change_env s t hc]
    exact hc
  | reset => cases h; exact .reset

/-- Everything a step can do to the core (the environment apart). -/
theorem step_change (s t : State) (h : step s = .next t) : Change s { t with env := s.env } := by
  unfold step machineMove at h
  split at h
  · next u us _ =>
    have hc := turnMove_change u (setTurns us s) t h
    exact change_withEnv s { t with env := (setTurns us s).env } (setTurns us s).env hc
  · exact turnMove_change _ s t h

end Sys2Proof.Machine
end

