-- ==== Sys2Proof/Laws/Agents.lean ====
section
/-! SUPPORT. What the agents' moves can do, said once, and runs of several steps. -/

namespace Sys2Proof.Machine

/-- A step is the move of one turn, at the state with that turn used up; a reset turn is one that stood first. -/
theorem step_turn (s : State) :
    ∃ u e, step s = turnMove u { s with env := e } ∧ e.pending = s.env.pending ∧ e.answers = s.env.answers ∧
      e.draws = s.env.draws ∧ (u = .reset → s.env.turns.head? = some .reset) := by
  unfold step machineMove
  split
  · next u us hu => exact ⟨u, _, rfl, rfl, rfl, rfl, by rw [hu]; rintro rfl; rfl⟩
  · refine ⟨_, s.env, rfl, rfl, rfl, rfl, ?_⟩
    unfold defaultTurn
    split <;> simp

/-- The ways in which CORE's move ends, by the command in flight (30_encoding.md R77, R78). -/
theorem coreMove_cases (s t : State) (h : coreMove s = .next t) :
    (s.status.busy = false ∧ t = s) ∨
    (s.status.busy = true ∧ decode s.latch.cmd = none ∧ t = raiseCmdError .illegalCmd s) ∨
    (s.status.busy = true ∧ ∃ i ∈ resultCommands, decode s.latch.cmd = some i ∧ ∃ v, t = completeWithResult v s) ∨
    (s.status.busy = true ∧ decode s.latch.cmd = some .keyexp ∧ ∃ k0 k1 k2, t = completeWithKeys k0 k1 k2 s) ∨
    (s.status.busy = true ∧ ∃ x, decode s.latch.cmd = some (avalancheInstr x) ∧ t = runHarness Config.params x s) := by
  unfold coreMove at h
  split at h
  · next hb =>
    split at h
    · next i hi =>
      rw [hi]
      cases i <;> first
        | exact .inr (.inr (.inl ⟨hb, _, by decide, rfl, _, (Host.Outcome.next.inj h).symm⟩))
        | exact .inr (.inr (.inr (.inl ⟨hb, rfl, _, _, _, (Host.Outcome.next.inj h).symm⟩)))
        | exact .inr (.inr (.inr (.inr ⟨hb, .pt, rfl, (Host.Outcome.next.inj h).symm⟩)))
        | exact .inr (.inr (.inr (.inr ⟨hb, .key, rfl, (Host.Outcome.next.inj h).symm⟩)))
    · next hd => exact .inr (.inl ⟨hb, hd, (Host.Outcome.next.inj h).symm⟩)
  · next hb => exact .inl ⟨by simpa using hb, (Host.Outcome.next.inj h).symm⟩

/-- HOST's move leaves every output of the core as it was (20_memory.md R54, R62). -/
theorem hostMove_outputs (s t : State) (h : hostMove s = .next t) : SameOutputs s t := by
  unfold hostMove at h
  split at h
  · cases h; exact ⟨rfl, rfl, rfl, rfl, rfl, rfl, rfl, rfl⟩
  · next a w v rest _ =>
    rcases hostWriteUnder_next _ _ _ _ _ _ h with h | ⟨r, -, h⟩ <;> rw [h]
    · exact ⟨rfl, rfl, rfl, rfl, rfl, rfl, rfl, rfl⟩
    · rcases writeRegister_cases r v (setPending rest s) with h | ⟨-, -, h⟩ | ⟨c, a, b, t, d, h⟩ <;> rw [h] <;>
        exact ⟨rfl, rfl, rfl, rfl, rfl, rfl, rfl, rfl⟩
  · rcases hostReadUnder_next _ _ _ _ _ h with ⟨v, h⟩ | ⟨-, h⟩ <;> rw [h] <;> exact ⟨rfl, rfl, rfl, rfl, rfl, rfl, rfl, rfl⟩
  · unfold hostPoll at h
    simp only [Host.Outcome.next.injEq] at h
    subst h
    split <;> exact ⟨rfl, rfl, rfl, rfl, rfl, rfl, rfl, rfl⟩

/-- A run of one step more goes on from the step's next state. -/
theorem run_succ (s t : State) (n : Nat) (h : step s = .next t) :
    Host.Core.run Sys2Proof.core (n + 1) s = Host.Core.run Sys2Proof.core n t := by
  have h' : Sys2Proof.core.step s = .next t := h
  simp [Host.Core.run, h']

/-- A run of no step. -/
theorem run_zero (s : State) : Host.Core.run Sys2Proof.core 0 s = .next s := rfl

end Sys2Proof.Machine
end

