-- ==== Sys2Proof/Laws/Harness.lean ====
section
/-! SUPPORT. The parts of a harness run: its trials, its samples, the bits of its records. -/

namespace Sys2Proof.Machine

theorem harness_length (P : Params) (x : Experiment) (n : Nat) (seed : BusWord) (f : Bool) : (harness P x n seed f).length = n := by
  simp [harness]

theorem harness_map_dB (P : Params) (x : Experiment) (n : Nat) (seed : BusWord) (f : Bool) :
    (harness P x n seed f).map TrialRecord.dB = (List.range n).map (fun i => (trial P x seed f i).dB) := by
  rw [harness, List.map_map]; rfl

theorem harness_map_dE (P : Params) (x : Experiment) (n : Nat) (seed : BusWord) (f : Bool) :
    (harness P x n seed f).map TrialRecord.dE = (List.range n).map (fun i => (trial P x seed f i).dE) := by
  rw [harness, List.map_map]; rfl

/-- A block has at most 16 bits that are 1. -/
theorem popcount_le (v : Block) : popcount v ≤ 16 := by
  unfold popcount
  exact List.countP_le_length.trans (by simp)

/-- The check passes exactly for 1 to T_MAX trials (44_harness.md R198). -/
theorem checkTrials_none (P : Params) (t : Nat) (pos : 1 ≤ t) (le : t ≤ P.tMax) : checkTrials P t = none := by
  unfold checkTrials
  rw [if_neg (by omega), if_neg (by omega)]

theorem foldl_min_le (l : List Nat) (a : Nat) : l.foldl Nat.min a ≤ a ∧ ∀ d ∈ l, l.foldl Nat.min a ≤ d := by
  induction l generalizing a with
  | nil => simp
  | cons b l ih =>
    have h := ih (Nat.min a b)
    simp only [List.foldl_cons, List.mem_cons, forall_eq_or_imp]
    exact ⟨h.1.trans (Nat.min_le_left _ _), h.1.trans (Nat.min_le_right _ _), h.2⟩

theorem foldl_min_mem (l : List Nat) (a : Nat) : l.foldl Nat.min a = a ∨ l.foldl Nat.min a ∈ l := by
  induction l generalizing a with
  | nil => simp
  | cons b l ih =>
    simp only [List.foldl_cons, List.mem_cons]
    rcases ih (Nat.min a b) with h | h
    · rcases Nat.le_total a b with hab | hab
      · exact .inl (h.trans (Nat.min_eq_left hab))
      · exact .inr (.inl (h.trans (Nat.min_eq_right hab)))
    · exact .inr (.inr h)

theorem foldl_max_le (l : List Nat) (a : Nat) : a ≤ l.foldl Nat.max a ∧ ∀ d ∈ l, d ≤ l.foldl Nat.max a := by
  induction l generalizing a with
  | nil => simp
  | cons b l ih =>
    have h := ih (Nat.max a b)
    simp only [List.foldl_cons, List.mem_cons, forall_eq_or_imp]
    exact ⟨(Nat.le_max_left _ _).trans h.1, (Nat.le_max_right _ _).trans h.1, h.2⟩

theorem foldl_max_mem (l : List Nat) (a : Nat) : l.foldl Nat.max a = a ∨ l.foldl Nat.max a ∈ l := by
  induction l generalizing a with
  | nil => simp
  | cons b l ih =>
    simp only [List.foldl_cons, List.mem_cons]
    rcases ih (Nat.max a b) with h | h
    · rcases Nat.le_total a b with hab | hab
      · exact .inr (.inl (h.trans (Nat.max_eq_right hab)))
      · exact .inl (h.trans (Nat.max_eq_left hab))
    · exact .inr (.inr h)

theorem ofNat_32_getLsbD (d i : Nat) (hd : d ≤ 16) (hi : 5 ≤ i) : (BitVec.ofNat 32 d).getLsbD i = false := by
  simp only [BitVec.getLsbD_ofNat]
  rw [Nat.testBit_lt_two_pow (lt_of_lt_of_le (show d < 2 ^ 5 by omega) (Nat.pow_le_pow_right (by omega) hi))]
  simp

theorem targetBit_getLsbD (x : Experiment) (j : Nat) : (targetBit x).getLsbD j = (decide (j = 0) && decide (x = .key)) := by
  cases x
  · simp [targetBit]
  · simp only [targetBit]
    cases j <;> simp [BitVec.getLsbD_ofNat, Nat.testBit_succ]

/-- TREC word 1, bit by bit (44_harness.md R195), for distances of at most 16. -/
theorem recordWord1_getLsbD (r : TrialRecord) (hB : r.dB ≤ 16) (hE : r.dE ≤ 16) (i : Nat) (hi : i < 32) :
    (recordWord1 r).getLsbD i =
      if i < 4 then r.b.getLsbD i else if i = 4 then decide (r.target = .key) else if i < 8 then false
      else if i < 13 then (BitVec.ofNat 32 r.dB).getLsbD (i - 8) else if i < 16 then false
      else if i < 21 then (BitVec.ofNat 32 r.dE).getLsbD (i - 16) else false := by
  simp only [recordWord1, BitVec.getLsbD_or, BitVec.getLsbD_shiftLeft, BitVec.getLsbD_setWidth, targetBit_getLsbD, hi,
    decide_true, Bool.true_and]
  split
  · next h => simp [h, show i < 8 by omega, show i < 16 by omega]
  · rw [BitVec.getLsbD_of_ge r.b i (by omega)]
    split
    · next h => subst h; simp
    · simp only [show ¬i - 4 = 0 by omega, decide_false, Bool.false_and, Bool.and_false, Bool.or_false]
      split
      · next h => simp [show i < 16 by omega, show i < 8 by omega]
      · next h8 =>
        simp only [h8, decide_false, Bool.not_false, Bool.true_and]
        split
        · next h => simp [show i < 16 by omega]
        · rw [ofNat_32_getLsbD r.dB (i - 8) hB (by omega)]
          split
          · next h => simp [h]
          · next h16 =>
            simp only [h16, decide_false, Bool.not_false, Bool.true_and, Bool.or_false]
            split
            · rfl
            · exact ofNat_32_getLsbD _ _ hE (by omega)

end Sys2Proof.Machine
end

