-- ==== Sys2Proof/Laws/PerInstr.lean ====
section
/-! SUPPORT. What holds of each command as syntax, one lemma per command. -/

namespace Sys2Proof.Laws

/-- The command word of a command is legal by R74's own list, carries its opcode in CMD[7:0] and zero above, and decodes to it. -/
def CommandWord.Statement (i : Instr) : Prop :=
  legalWord (encode i) = true ∧ reservedField (encode i) = 0 ∧ opcodeField (encode i) = opcode i ∧ decode (encode i) = some i

theorem CommandWord.gfmul : CommandWord.Statement .gfmul := by unfold CommandWord.Statement; decide
theorem CommandWord.sboxf : CommandWord.Statement .sboxf := by unfold CommandWord.Statement; decide
theorem CommandWord.sboxi : CommandWord.Statement .sboxi := by unfold CommandWord.Statement; decide
theorem CommandWord.xorst : CommandWord.Statement .xorst := by unfold CommandWord.Statement; decide
theorem CommandWord.rkmask : CommandWord.Statement .rkmask := by unfold CommandWord.Statement; decide
theorem CommandWord.keyexp : CommandWord.Statement .keyexp := by unfold CommandWord.Statement; decide
theorem CommandWord.subnib : CommandWord.Statement .subnib := by unfold CommandWord.Statement; decide
theorem CommandWord.invsubnib : CommandWord.Statement .invsubnib := by unfold CommandWord.Statement; decide
theorem CommandWord.subnibd : CommandWord.Statement .subnibd := by unfold CommandWord.Statement; decide
theorem CommandWord.invsubnibd : CommandWord.Statement .invsubnibd := by unfold CommandWord.Statement; decide
theorem CommandWord.shrows : CommandWord.Statement .shrows := by unfold CommandWord.Statement; decide
theorem CommandWord.invshrows : CommandWord.Statement .invshrows := by unfold CommandWord.Statement; decide
theorem CommandWord.mixcol : CommandWord.Statement .mixcol := by unfold CommandWord.Statement; decide
theorem CommandWord.invmixcol : CommandWord.Statement .invmixcol := by unfold CommandWord.Statement; decide
theorem CommandWord.encB : CommandWord.Statement .encB := by unfold CommandWord.Statement; decide
theorem CommandWord.decB : CommandWord.Statement .decB := by unfold CommandWord.Statement; decide
theorem CommandWord.encE : CommandWord.Statement .encE := by unfold CommandWord.Statement; decide
theorem CommandWord.decE : CommandWord.Statement .decE := by unfold CommandWord.Statement; decide
theorem CommandWord.avalPt : CommandWord.Statement .avalPt := by unfold CommandWord.Statement; decide
theorem CommandWord.avalKey : CommandWord.Statement .avalKey := by unfold CommandWord.Statement; decide

end Sys2Proof.Laws
end

