-- ==== Sys2Proof/Laws/Summary.lean ====
section
/-! SUPPORT. What the summary statistics are, said once. -/

namespace Sys2Proof.Machine

/-- A standard deviation is the root of its square (44_harness.md R201). -/
theorem stddev_of_squared (kind : StddevKind) (st : Stats) (q : ℚ) (h : stddevSquared kind st = some q) (nonneg : 0 ≤ q) :
    stddev kind st = some (Real.sqrt q) := by
  simp only [stddev, h, if_pos nonneg]

/-- No square, no standard deviation: before any run, and the sample kind for one sample (44_harness.md R201). -/
theorem stddev_of_none (kind : StddevKind) (st : Stats) (h : stddevSquared kind st = none) : stddev kind st = none := by
  simp only [stddev, h]

/-- Whatever the registers hold, a standard deviation is the root of a number that is not negative. -/
theorem stddev_eq_some (kind : StddevKind) (st : Stats) (d : ℝ) (h : stddev kind st = some d) :
    ∃ q, stddevSquared kind st = some q ∧ 0 ≤ q ∧ d = Real.sqrt q := by
  unfold stddev at h
  split at h
  · next q hq =>
    split at h
    · next nonneg => exact ⟨q, hq, nonneg, (Option.some.inj h).symm⟩
    · cases h
  · cases h

end Sys2Proof.Machine
end

