-- ==== Sys2Proof/Tests/Slice0.lean ====
section
/-! SUPPORT. The model's own tests. Expected values come from the spec: the words from 30_encoding.md R73, the results from the vectors
of 95_test_vectors.md (V1 to V18, with the default SBOX where a value depends on SBOX) and the examples of the command rules. -/

namespace Sys2Proof.Machine

/-! Decoding: each word written out from its row of the opcode map (R73). -/

theorem test_decode_gfmul : decode 0b00000000000000000000000000000001#32 = some .gfmul := by decide
theorem test_decode_sboxf : decode 0b00000000000000000000000000000010#32 = some .sboxf := by decide
theorem test_decode_sboxi : decode 0b00000000000000000000000000000011#32 = some .sboxi := by decide
theorem test_decode_xorst : decode 0b00000000000000000000000000000100#32 = some .xorst := by decide
theorem test_decode_rkmask : decode 0b00000000000000000000000000000101#32 = some .rkmask := by decide
theorem test_decode_keyexp : decode 0b00000000000000000000000000000110#32 = some .keyexp := by decide
theorem test_decode_subnib : decode 0b00000000000000000000000000001000#32 = some .subnib := by decide
theorem test_decode_invsubnib : decode 0b00000000000000000000000000001001#32 = some .invsubnib := by decide
theorem test_decode_subnibd : decode 0b00000000000000000000000000001010#32 = some .subnibd := by decide
theorem test_decode_invsubnibd : decode 0b00000000000000000000000000001011#32 = some .invsubnibd := by decide
theorem test_decode_shrows : decode 0b00000000000000000000000000001100#32 = some .shrows := by decide
theorem test_decode_invshrows : decode 0b00000000000000000000000000001101#32 = some .invshrows := by decide
theorem test_decode_mixcol : decode 0b00000000000000000000000000001110#32 = some .mixcol := by decide
theorem test_decode_invmixcol : decode 0b00000000000000000000000000001111#32 = some .invmixcol := by decide
theorem test_decode_encB : decode 0b00000000000000000000000000010000#32 = some .encB := by decide
theorem test_decode_decB : decode 0b00000000000000000000000000010001#32 = some .decB := by decide
theorem test_decode_encE : decode 0b00000000000000000000000000010010#32 = some .encE := by decide
theorem test_decode_decE : decode 0b00000000000000000000000000010011#32 = some .decE := by decide
theorem test_decode_avalPt : decode 0b00000000000000000000000000100000#32 = some .avalPt := by decide
theorem test_decode_avalKey : decode 0b00000000000000000000000000100001#32 = some .avalKey := by decide
/-- V14: a reserved OPCODE, set reserved bits, and a group 0x1 OPCODE with bits 3 to 2 set. -/
theorem test_decode_illegal :
    decode 0x00000007#32 = none ∧ decode 0x00000110#32 = none ∧ decode 0x00000014#32 = none ∧ decode 0#32 = none := by
  decide

/-! Well-formedness: an ill-formed term for each check. -/

theorem test_word_reserved_bits_refused : legalWord 0x00000110#32 = false := by decide
theorem test_word_reserved_opcode_refused : legalWord 0x00000022#32 = false := by decide
theorem test_sbox_not_permutation_refused :
    Sbox.ofTable (0x4 :: defaultSboxTable.tail) = .error .sboxNotPermutation := by decide
theorem test_sbox_too_short_refused : Sbox.ofTable defaultSboxTable.dropLast = .error .sboxNotPermutation := by decide
theorem test_tmax_zero_refused : tMaxOfNat 0 = .error .tMaxOutOfRange := by decide
theorem test_tmax_too_large_refused : tMaxOfNat 8193 = .error .tMaxOutOfRange := by decide
theorem test_tmax_default : (tMaxOfNat 8192).toOption.map (fun t => t.val + 1) = some 8192 := by decide

/-! Parameters and states for the tests. -/

/-- The default SBOX (V3). -/
def testSbox : Sbox :=
  match Sbox.ofTable defaultSboxTable with
  | .ok sb => sb
  | .error _ => Equiv.refl Nibble

/-- The parameters of V16: the default SBOX, the table TRIAL_SOURCE, the default T_MAX. -/
def testParams : Params :=
  { sbox := testSbox
    trialSource := fun _ _ i =>
      match i with
      | 0 => ⟨0x1234, 0x3A94, 0⟩
      | 1 => ⟨0xBEEF, 0xCAFE, 15⟩
      | 2 => ⟨0x0000, 0x0000, 7⟩
      | _ => ⟨0xFFFF, 0x1A2B, 8⟩
    tMaxPred := 8191
    stddevKind := .population }

/-- A command just issued with OPA = `a`, OPB = `b`, CTRL = 0. -/
def testState (a b : Block) : State := issue 0x00000001 { State.reset with opa := a, opb := b }

/-- A harness command just issued with TRIALS = `t`, SEED = 0x2A. -/
def testTrials (t : BusWord) : State := issue 0x00000020 { State.reset with trials := t, seed := 0x2A }

/-- RESULT of a next state. -/
def resultOf (o : Outcome) : Option Block :=
  match o with
  | .next t => some t.result
  | .fault _ => none
  | .refused _ => none

/-- A word a host read would return, for a next state. -/
def wordOf (o : Outcome) (r : Register) : Option BusWord :=
  match o with
  | .next t => some (readRegister r t)
  | .fault _ => none
  | .refused _ => none

/-- The words of TREC[i], for a next state. -/
def trecOf (o : Outcome) (i : Nat) : Option BusWord × Option BusWord :=
  match o with
  | .next t => (Memory.readWord t.trec (trecWord0 i), Memory.readWord t.trec (trecWord1 i))
  | .fault _ => (none, none)
  | .refused _ => (none, none)

/-- The last answer of a next state. -/
def answerOf (o : Outcome) : Option BusWord :=
  match o with
  | .next t => (t.env.answers.head?).map Answer.data
  | .fault _ => none
  | .refused _ => none

/-- The fault of an outcome. -/
def faultOf (o : Outcome) : Option Fault :=
  match o with
  | .next _ => none
  | .fault f => some f
  | .refused _ => none

/-! Commands. -/

/-- V2: high bits ignored. -/
theorem test_gfmul_truncates : resultOf (execGfmul (testState 0xFFF7 0x1233)) = some 0x0009 := by decide
/-- V2: largest operands. -/
theorem test_gfmul_largest : resultOf (execGfmul (testState 0x000F 0x000F)) = some 0x000A := by decide
/-- V1, rows 7 and A: a row of the multiplication table each. -/
theorem test_multiply_rows :
    (List.range 16).map (fun b => multiply 7 (BitVec.ofNat 4 b)) = [0, 7, 0xE, 9, 0xF, 8, 1, 6, 0xD, 0xA, 3, 4, 2, 5, 0xC, 0xB] ∧
    (List.range 16).map (fun b => multiply 0xA (BitVec.ofNat 4 b)) = [0, 0xA, 7, 0xD, 0xE, 4, 9, 3, 0xF, 5, 8, 2, 1, 0xB, 6, 0xC] := by
  decide
/-- V3: index F. -/
theorem test_sboxf : resultOf (execSboxfUnder testParams (testState 0x123F 0)) = some 0x0007 := by decide
/-- V3: the inverse row. -/
theorem test_sboxi :
    (List.range 16).map (fun y => sboxInvAt testSbox (BitVec.ofNat 4 y)) =
      [0xA, 5, 9, 0xB, 1, 7, 8, 0xF, 6, 0, 2, 3, 0xC, 4, 0xD, 0xE] := by decide
/-- V3. -/
theorem test_sboxi_command : resultOf (execSboxiUnder testParams (testState 0x0009 0)) = some 0x0000 := by decide
/-- V7. -/
theorem test_xorst : resultOf (execXorst (testState 0x1234 0x3A94)) = some 0x28A0 := by decide
/-- V7. -/
theorem test_rkmask : resultOf (execRkmask (testState 0x68FC 0)) = some 0x000D := by decide
/-- V7: the mask of 8421 is F. -/
theorem test_rkmask_all : resultOf (execRkmask (testState 0x8421 0)) = some 0x000F := by decide
/-- V6: RK1 and RK2 of key 3A94; RESULT is not written. -/
theorem test_keyexp :
    wordOf (execKeyexpUnder testParams (testState 0x3A94 0)) .rk1 = some 0x68FC ∧
    wordOf (execKeyexpUnder testParams (testState 0x3A94 0)) .rk2 = some 0x9F63 := by decide
/-- V6: key CAFE. -/
theorem test_keyexp_cafe : expandKey testSbox 0xCAFE = ⟨0xCAFE, 0xBD43, 0x3073⟩ := by decide
/-- V8, row ABCD. -/
theorem test_subnib : resultOf (execSubnibUnder testParams (testState 0xABCD 0)) = some 0x03CE := by decide
/-- V8, row ABCD. -/
theorem test_invsubnib : resultOf (execInvsubnibUnder testParams (testState 0xABCD 0)) = some 0x23C4 := by decide
/-- V8, row ABCD with m = 5; OPB bits above 3 are ignored. -/
theorem test_subnibd : resultOf (execSubnibdUnder testParams (testState 0xABCD 0xFFF5)) = some 0x2A73 := by decide
/-- V8, row ABCD with m = 5. -/
theorem test_invsubnibd : resultOf (execInvsubnibdUnder testParams (testState 0xABCD 0x0005)) = some 0xB853 := by decide
/-- V8, row 1234. -/
theorem test_shrows : resultOf (execShrows (testState 0x1234 0)) = some 0x1243 := by decide
/-- V8, row ABCD: INVSHROWS is SHROWS (R152). -/
theorem test_invshrows : resultOf (execInvshrows (testState 0xABCD 0)) = some 0xABDC := by decide
/-- V8, rows 8421 and 1234. -/
theorem test_mixcol :
    resultOf (execMixcol (testState 0x8421 0)) = some 0x0042 ∧ resultOf (execMixcol (testState 0x1234 0)) = some 0xD17C := by
  decide
/-- V8, rows ABCD and 0001. -/
theorem test_invmixcol :
    resultOf (execInvmixcol (testState 0xABCD 0)) = some 0xE51A ∧
    resultOf (execInvmixcol (testState 0x0001 0)) = some 0x0209 := by decide
/-- V10, rows 1 and 4, column B. -/
theorem test_encB :
    resultOf (execEncBUnder testParams (testState 0x1234 0x3A94)) = some 0x6035 ∧
    resultOf (execEncBUnder testParams (testState 0xBEEF 0xCAFE)) = some 0xDBF6 := by decide
/-- V11. -/
theorem test_decB : resultOf (execDecBUnder testParams (testState 0x6035 0x3A94)) = some 0x1234 := by decide
/-- V10, rows 1 and 6, column E. -/
theorem test_encE :
    resultOf (execEncEUnder testParams (testState 0x1234 0x3A94)) = some 0x18F4 ∧
    resultOf (execEncEUnder testParams (testState 0xAAAA 0x5555)) = some 0xF3ED := by decide
/-- P2: with CTRL = 1 latched, ENC.E gives the baseline ciphertext. -/
theorem test_encE_force0 :
    resultOf (execEncEUnder testParams (issue 0x12 { State.reset with opa := 0x1234, opb := 0x3A94, ctrl := true })) =
      some 0x6035 := by decide
/-- V12. -/
theorem test_decE : resultOf (execDecEUnder testParams (testState 0x18F4 0x3A94)) = some 0x1234 := by decide
/-- P2: decrypting with the wrong masks. -/
theorem test_decE_force0 :
    resultOf (execDecEUnder testParams (issue 0x13 { State.reset with opa := 0x18F4, opb := 0x3A94, ctrl := true })) =
      some 0x9FFE := by decide
/-- V16, AVAL.PT: STAT_B, STAT_E and STATUS. -/
theorem test_avalPt_stats :
    [Register.statBCount, .statBSum, .statBSumsq, .statBMinmax, .statESum, .statESumsq, .statEMinmax, .status].map
      (wordOf (execAvalPtUnder testParams (testTrials 4))) =
    [some 4, some 0x0E, some 0x32, some 0x403, some 0x0F, some 0x3D, some 0x502, some 0x102] := by decide +kernel
/-- V16, AVAL.PT: records 1 and 3; record 4 is not written (P3). -/
theorem test_avalPt_records :
    trecOf (execAvalPtUnder testParams (testTrials 4)) 1 = (some 0xCAFEBEEF, some 0x0004030F) ∧
    trecOf (execAvalPtUnder testParams (testTrials 4)) 3 = (some 0x1A2BFFFF, some 0x00020408) ∧
    trecOf (execAvalPtUnder testParams (testTrials 4)) 4 = (none, none) := by decide +kernel
/-- V16, AVAL.KEY: STAT_B, STAT_E and STATUS. -/
theorem test_avalKey_stats :
    [Register.statBCount, .statBSum, .statBSumsq, .statBMinmax, .statESum, .statESumsq, .statEMinmax, .status].map
      (wordOf (execAvalKeyUnder testParams (testTrials 4))) =
    [some 4, some 0x1C, some 0xD8, some 0xA04, some 0x20, some 0x116, some 0xC06, some 0x202] := by decide +kernel
/-- V16, AVAL.KEY: records 0 and 2. -/
theorem test_avalKey_records :
    trecOf (execAvalKeyUnder testParams (testTrials 4)) 0 = (some 0x3A941234, some 0x000C0A10) ∧
    trecOf (execAvalKeyUnder testParams (testTrials 4)) 2 = (some 0x00000000, some 0x00070817) := by decide +kernel
/-- V14: TRIALS = 0 and TRIALS = T_MAX + 1. -/
theorem test_aval_errors :
    wordOf (execAvalPtUnder testParams (testTrials 0)) .status = some 0x26 ∧
    wordOf (execAvalKeyUnder testParams (testTrials 0x2001)) .status = some 0x36 := by decide
/-- V16: mean 3.5 and population variance 0.25 of AVAL.PT's baseline sequence; sample variance 1/3; none for one sample (R201). -/
theorem test_summary :
    meanOf (statsOf [4, 3, 3, 4]) = some (7 / 2) ∧ stddevSquared .population (statsOf [4, 3, 3, 4]) = some (1 / 4) ∧
    stddevSquared .sample (statsOf [4, 3, 3, 4]) = some (1 / 3) ∧ stddevSquared .sample (statsOf [4]) = none := by
  decide +kernel

/-- V16: population deviation 0.5 of AVAL.PT's baseline sequence, and sqrt(5) of AVAL.KEY's. -/
theorem test_stddev :
    stddev .population (statsOf [4, 3, 3, 4]) = some (1 / 2) ∧ stddev .population (statsOf [10, 4, 8, 6]) = some (Real.sqrt 5) := by
  have h1 : stddevSquared .population (statsOf [4, 3, 3, 4]) = some ((1 / 2) ^ 2) := by decide +kernel
  have h2 : stddevSquared .population (statsOf [10, 4, 8, 6]) = some 5 := by decide +kernel
  constructor
  · rw [stddev_of_squared _ _ _ h1 (by norm_num)]
    push_cast
    rw [Real.sqrt_sq (by norm_num)]
  · rw [stddev_of_squared _ _ _ h2 (by norm_num)]
    norm_num

/-! The bus, the agents, reset. -/

/-- V14: an unaligned read, an unmapped read, a narrow read. -/
theorem test_bus_errors :
    faultOf (hostReadUnder 8192 0x00002 .word State.reset) = some (.busError 0x00002) ∧
    faultOf (hostReadUnder 8192 0x0002C .word State.reset) = some (.busError 0x0002C) ∧
    faultOf (hostReadUnder 8192 0x00014 .half State.reset) = some (.busError 0x00014) := by decide
/-- V14: an unwritten TREC word after reset. -/
theorem test_read_unwritten : faultOf (hostReadUnder 8192 0x10000 .word State.reset) = some (.readUnwritten 0x10000) := by
  decide
/-- The end of TREC: T_MAX = 1 maps 0x10004 and not 0x10008 (R52). -/
theorem test_trec_end :
    faultOf (hostReadUnder 1 0x10004 .word State.reset) = some (.readUnwritten 0x10004) ∧
    faultOf (hostReadUnder 1 0x10008 .word State.reset) = some (.busError 0x10008) := by decide
/-- V14, truncation: OPA reads 00005678. -/
theorem test_opa_truncates : wordOf (hostWriteUnder 8192 0x0000C .word 0x12345678 State.reset) .opa = some 0x5678 := by decide
/-- P3: TREC[1].w1 read back over the bus. -/
theorem test_trec_read :
    (match execAvalPtUnder testParams (testTrials 4) with
      | .next t => answerOf (hostReadUnder 8192 0x1000C .word t)
      | _ => none) = some 0x0004030F := by decide +kernel
/-- V15: issue sets BUSY alone. -/
theorem test_issue_status : statusWord (issue 0x10 State.reset).status = 0x00000001 := by decide
/-- V14: a CMD write while busy changes nothing. -/
theorem test_cmd_while_busy : writeRegister .cmd 0x11 (issue 0x10 State.reset) = issue 0x10 State.reset := by decide
/-- V14: an illegal command, performed by the step after it is placed, gives STATUS 00000016. -/
theorem test_step_illegal : wordOf (step (State.reset.withFetchWord 32 0x110)) .status = some 0x16 := by decide
/-- P5: GFMUL as the first command after reset gives STATUS 00000002. -/
theorem test_step_gfmul : wordOf (step (State.reset.withFetchWord 32 0x01)) .status = some 0x2 := by decide
/-- V14: AVAL.PT as the first command after reset finds TRIALS = 0. -/
theorem test_step_avalPt : wordOf (step (State.reset.withFetchWord 32 0x20)) .status = some 0x26 := by decide
/-- R250: a reset turn aborts the command in flight. -/
theorem test_step_reset : wordOf (step (setTurns [.reset] (testState 1 2))) .status = some 0 := by decide
/-- R260: the read of STATUS straight after the CMD write may see BUSY = 1, or, after CORE's step, 2. -/
theorem test_status_race :
    answerOf (Host.Core.run Sys2Proof.core 2 (setTurns [.host, .host] (setPending [opWr .cmd 1, opRd .status] State.reset))) =
      some 1 ∧
    answerOf (Host.Core.run Sys2Proof.core 3 (setTurns [] (setPending [opWr .cmd 1, opRd .status] State.reset))) =
      some 2 := by decide
/-- With nothing pending and nothing in flight the machine idles. -/
theorem test_step_idle : step State.reset = .next State.reset := by rfl

/-! Witnesses: for every statement with hypotheses, concrete states and operands that meet them together, one for each clause. -/

/-- A state with command word `v` just issued, TRIALS = `t`, CTRL = 1. -/
def testIssued (v t : BusWord) : State :=
  issue v { State.reset with opa := 0x1233, opb := 0x3A90, ctrl := true, trials := t, seed := 0x2A }

/-- The idle state after an illegal command: ERR = 1. -/
def testErred : State := raiseCmdError .illegalCmd (issue 0 State.reset)

/-- The idle state with record 0 of TREC written. -/
def testWritten : State := { State.reset with trec := Memory.writeBytes [] trecBase (wordBytes 5 ++ wordBytes 6) }

theorem witness_tMax : 1 ≤ Config.params.tMax ∧ Config.params.tMax ≤ 8192 := ⟨Nat.le_add_left 1 _, Config.params.tMaxPred.isLt⟩

/-- DecodeInvertsEncode. -/
theorem witness_encoding : Instr.avalKey.wf = true ∧ decode 0x00000021#32 = some .avalKey := by decide

/-- IllegalWordsReportError: at the ends of every range of R74, and with the lowest and the highest reserved bit set. -/
theorem witness_illegal :
    (∀ v, (testIssued v 0).status.busy = true ∧ (testIssued v 0).latch.cmd = v) ∧
    [0x00#32, 0x07#32, 0x14#32, 0x1F#32, 0x22#32, 0xFF#32, 0x101#32, 0x80000001#32].map decode = List.replicate 8 none :=
  ⟨fun _ => ⟨rfl, rfl⟩, by decide⟩

/-- OpcodeFieldStructure. -/
theorem witness_groups : (opcode .decE).extractLsb' 4 4 = 1#4 ∧ (opcode .avalKey).extractLsb' 4 4 = 2#4 := by decide

/-- CoreTurnRunsDecodedCommand: no turn fixed, and a CORE turn first. CoreStepPerformsAndCompletes: idle, and busy with either kind of
word. -/
theorem witness_core_turn :
    (testIssued 1 0).status.busy = true ∧ decode (testIssued 1 0).latch.cmd = some .gfmul ∧ (testIssued 1 0).env.turns = [] ∧
    (setTurns [.core, .host] (testIssued 1 0)).env.turns = [.core, .host] ∧ Instr.gfmul.wf = true ∧
    State.reset.status.busy = false ∧ decode (testIssued 7 0).latch.cmd = none := by decide

/-- HostTurnMakesPendingAccess: a HOST turn first while busy, and no turn while idle, with each kind of access pending, or none. -/
theorem witness_host_turn :
    (setTurns [.host, .core] (testIssued 1 0)).env.turns = .host :: [.core] ∧
    State.reset.env.turns = [] ∧ State.reset.status.busy = false ∧ State.reset.env.pending = [] ∧
    (setPending [opWr .opa 5, .wait] State.reset).env.pending = .write 0x0000C .word 5 :: [.wait] ∧
    (setPending [opRd .result] State.reset).env.pending = .read 0x00014 .word :: [] ∧
    (setPending [.wait, opRd .result] (testIssued 1 0)).env.pending = .wait :: [opRd .result] := by decide

/-- WaitLoopEnds. -/
theorem witness_wait :
    (testIssued 1 0).status.busy = true ∧ (setPending [.wait, opRd .result] (testIssued 1 0)).env.pending = .wait :: [opRd .result] := by
  decide

/-- The statements about the default SBOX. -/
theorem witness_default_sbox : Sbox.ofTable defaultSboxTable = .ok testSbox := by
  have h : TableWf defaultSboxTable := by decide
  unfold testSbox Sbox.ofTable
  rw [dif_pos h]

/-- SubnibdResults (mask 0), ShiftRowsResults (equal low nibbles), EnhancedCipherResults and MaskZeroEquivalence (CTRL latched 1, equal low
nibbles of the key). -/
theorem witness_operands :
    (testIssued 0xA 0).latch.b.extractLsb' 0 4 = 0 ∧ (0x1233#16).extractLsb' 0 4 = (0x1233#16).extractLsb' 4 4 ∧
    (testIssued 0x12 0).latch.ctrl = true ∧ (0x3A99#16).extractLsb' 4 4 = (0x3A99#16).extractLsb' 0 4 := by decide

/-- CipherRoundTrip: the state after ENC with its RESULT as the latched block, for both variants. -/
theorem witness_round_trip (v : Variant) :
    ∃ t u, exec (encryptInstr v) (testIssued 0x10 0) = .next t ∧
      u = { testIssued 0x10 0 with latch := { (testIssued 0x10 0).latch with a := t.result } } ∧
      u.latch.a = t.result ∧ u.latch.b = (testIssued 0x10 0).latch.b ∧ u.latch.ctrl = (testIssued 0x10 0).latch.ctrl := by
  cases v <;> exact ⟨_, _, rfl, rfl, rfl, rfl, rfl⟩

/-- MixColumnsResults: each of the four clauses on columns. -/
theorem witness_columns :
    ¬((toMatrix 0x1000).n00 = 0 ∧ (toMatrix 0x1000).n10 = 0) ∧ ¬((toMatrix 0x000F).n01 = 0 ∧ (toMatrix 0x000F).n11 = 0) ∧
    ¬((toMatrix 0x1000).n00 = 0 ↔ (toMatrix 0x1000).n10 = 0) ∧ ¬((toMatrix 0x000F).n01 = 0 ↔ (toMatrix 0x000F).n11 = 0) := by decide

/-- The harness statements: the least and the greatest legal trial count. -/
theorem witness_legal_trials :
    (1 ≤ (testTrials 1).latch.trials.toNat ∧ (testTrials 1).latch.trials.toNat ≤ Config.params.tMax) ∧
    (let t := (testTrials (BitVec.ofNat 32 Config.params.tMax)).latch.trials.toNat; 1 ≤ t ∧ t ≤ Config.params.tMax) := by
  have h := witness_tMax
  have e : (testTrials (BitVec.ofNat 32 Config.params.tMax)).latch.trials.toNat = Config.params.tMax := by
    show (BitVec.ofNat 32 _).toNat = _
    rw [BitVec.toNat_ofNat, Nat.mod_eq_of_lt (by omega)]
  exact ⟨⟨by decide, h.1⟩, by rw [e]; exact h.1, by rw [e]⟩

/-- The harness statements' bytes: outside the records of a run of one trial, on both sides, and inside. HarnessWritesRecords: trial 0. -/
theorem witness_record_bytes :
    0xFFFF < 0x10000 ∧ 0x10000 + 8 * (testTrials 1).latch.trials.toNat ≤ 0x10008 ∧
    (0x10000 ≤ 0x10007 ∧ 0x10007 < 0x10000 + 8 * (testTrials 1).latch.trials.toNat) ∧ 0 < (testTrials 1).latch.trials.toNat := by
  have e : (testTrials 1).latch.trials.toNat = 1 := by decide
  rw [e]
  omega

/-- TrialCountErrors: no trial, one more than T_MAX, and the greatest count. -/
theorem witness_illegal_trials :
    (testTrials 0).latch.trials.toNat = 0 ∧
    Config.params.tMax < (testTrials (BitVec.ofNat 32 (Config.params.tMax + 1))).latch.trials.toNat ∧
    Config.params.tMax < (testTrials 0xFFFFFFFF).latch.trials.toNat := by
  have h := witness_tMax
  refine ⟨by decide, ?_, lt_of_le_of_lt h.2 (by decide)⟩
  show _ < (BitVec.ofNat 32 _).toNat
  rw [BitVec.toNat_ofNat, Nat.mod_eq_of_lt (by omega)]
  omega

/-- HarnessReproducible: two states that differ in much, with a run of one trial each. -/
theorem witness_reproducible :
    (testIssued 0x20 1).latch.seed = (setTurns [.reset] (testIssued 0x11 1)).latch.seed ∧
    (testIssued 0x20 1).latch.ctrl = (setTurns [.reset] (testIssued 0x11 1)).latch.ctrl ∧
    1 ≤ (testIssued 0x20 1).latch.trials.toNat ∧
    (testIssued 0x20 1).latch.trials.toNat ≤ (setTurns [.reset] (testIssued 0x11 1)).latch.trials.toNat ∧
    (setTurns [.reset] (testIssued 0x11 1)).latch.trials.toNat ≤ Config.params.tMax ∧
    (testIssued 0x20 1).latch.trials = (setTurns [.reset] (testIssued 0x11 1)).latch.trials :=
  ⟨rfl, rfl, by decide, by decide, witness_tMax.1, rfl⟩

/-- SummaryStatisticsAreExact: one sample, and the two ends of the range of a sample; registers of one sample, and of two. -/
theorem witness_samples :
    (1 ≤ (statsOf [4]).count.toNat ∧ (statsOf [4]).count.toNat = 1) ∧
    (2 ≤ (statsOf [0, 16]).count.toNat ∧
      (statsOf [0, 16]).sum.toNat * (statsOf [0, 16]).sum.toNat ≤ (statsOf [0, 16]).count.toNat * (statsOf [0, 16]).sumsq.toNat) ∧
    ([4].length = 1 ∧ ∀ d ∈ [4], d ≤ 16) ∧ (2 ≤ [0, 16].length ∧ [0, 16].length ≤ 8192 ∧ ∀ d ∈ [0, 16], d ≤ 16) := by decide

/-- RegisterMapAndTrecWindow: the last record of the largest TREC. -/
theorem witness_window : 1 ≤ 8192 ∧ 8191 < 8192 := by decide

/-- BadAccessesAreBusErrors: the widths, the alignments, the edges of the unmapped ranges. -/
theorem witness_bad_accesses :
    AccessWidth.byte ≠ .word ∧ AccessWidth.half ≠ .word ∧ (0x00001#17).extractLsb' 0 2 ≠ 0 ∧ (0x1FFFF#17).extractLsb' 0 2 ≠ 0 ∧
    Unmapped Config.params.tMax 0x0002C ∧ Unmapped Config.params.tMax 0x00050 ∧ Unmapped Config.params.tMax 0x0FFFC ∧
    (Config.params.tMax < 8192 → Unmapped Config.params.tMax 0x1FFFC ∧
      Unmapped Config.params.tMax (BitVec.ofNat 17 (0x10000 + 8 * Config.params.tMax))) := by
  refine ⟨by decide, by decide, by decide, by decide, .inl (by decide), .inr (.inl (by decide)), .inr (.inl (by decide)),
    fun h => ⟨.inr (.inr ?_), .inr (.inr ?_)⟩⟩
  · show _ ≤ 0x1FFFC
    omega
  · rw [BitVec.toNat_ofNat, Nat.mod_eq_of_lt (by omega)]

/-- UnwrittenRecordReadsFault, BusyOutputReadsAreFree, IdleReadsReturnStoredWords, ReadOnlyWritesIgnored: the first record; idle and
unwritten, idle and written, busy. -/
theorem witness_records :
    0 < Config.params.tMax ∧ State.reset.status.busy = false ∧ Memory.readWord State.reset.trec (0x10000 + 8 * 0 + 4 * 1) = none ∧
    testWritten.status.busy = false ∧ Memory.readWord testWritten.trec (0x10000 + 8 * 0 + 4 * 1) = some 6 ∧
    (testIssued 1 0).status.busy = true :=
  ⟨witness_tMax.1, rfl, rfl, rfl, by decide, rfl⟩

/-- UnwrittenRecordReadsFault, OutputsWrittenOnlyByTheirCommands, TrecStaysLegal, OutputsDescribeLastRun: the step of AVAL.KEY with one trial
writes TREC word 0 and LAST_EXP, from a legal state. -/
theorem witness_harness_step :
    ∃ t, step (testIssued 0x21 1) = .next t ∧ Memory.readWord (testIssued 0x21 1).trec 0x10000 = none ∧
      Memory.readWord t.trec 0x10000 ≠ none ∧ t.status.lastExp ≠ (testIssued 0x21 1).status.lastExp ∧
      (testIssued 0x21 1).env.turns.head? ≠ some .reset := by
  refine ⟨runHarness Config.params .key (testIssued 0x21 1), rfl, rfl, ?_⟩
  have hc : checkTrials Config.params (operandTrials (testIssued 0x21 1)) = none := checkTrials_none _ _ (by decide) witness_tMax.1
  unfold runHarness
  rw [hc]
  refine ⟨?_, by decide, by decide⟩
  have h := (readWord_writeRecords (testIssued 0x21 1).trec
    (harness Config.params .key 1 0x2A true) 0 (trial Config.params .key 0x2A true 0) rfl).1
  exact fun hn => Option.some_ne_none _ (h.symm.trans hn)

/-- TrecStaysLegal, OutputsDescribeLastRun, StatusStaysLegal: the hypotheses hold of the state before that step. -/
theorem witness_invariants :
    (testIssued 0x21 1).status.Legal ∧ CommandHeld (testIssued 0x21 1) ∧
    TrecLegal Config.params.tMax (testIssued 0x21 1).trec ∧ OutputsHeld Config.params (testIssued 0x21 1) :=
  ⟨by decide, fun _ => rfl, ⟨List.Pairwise.nil, fun _ h => absurd h List.not_mem_nil, fun _ _ _ => Iff.rfl, fun _ _ h => nomatch h⟩,
    fun _ => ⟨rfl, rfl, rfl⟩, fun x h => absurd h.symm (experimentCode_ne x).1⟩

/-- OutputsWrittenOnlyByTheirCommands: steps that change RESULT and RK0. -/
theorem witness_output_steps :
    (∃ t, step (testIssued 0xC 0) = .next t ∧ t.result ≠ (testIssued 0xC 0).result) ∧
    (∃ t, step (testIssued 6 0) = .next t ∧ t.rk0 ≠ (testIssued 6 0).rk0) ∧
    (testIssued 0xC 0).env.turns.head? ≠ some .reset ∧ (testIssued 6 0).env.turns.head? ≠ some .reset := by
  refine ⟨⟨_, rfl, ?_⟩, ⟨_, rfl, ?_⟩, by decide, by decide⟩ <;> decide

/-- ReadsLeaveCoreUnchanged. -/
theorem witness_read : ∃ t, hostRead 0x00004 .word State.reset = .next t := ⟨_, rfl⟩

/-- OperandWritesSpareCommandInFlight, IssueLatchesOperands. -/
theorem witness_writes :
    (testIssued 1 0).status.busy = true ∧ Register.opa ∈ [Register.opa, .opb, .ctrl, .trials, .seed] ∧
    State.reset.status.busy = false := by decide

/-- ResetStepAtAnyTime: with a command in flight. -/
theorem witness_reset_turn :
    (setTurns [.reset, .host] (testIssued 0x20 1)).env.turns = .reset :: [.host] ∧
    (setTurns [.reset, .host] (testIssued 0x20 1)).status.busy = true := by decide

/-- CommandsKeepTheirWriteSet: different states with the same latched inputs, each answering a next state. -/
theorem witness_same_inputs :
    (∀ i ∈ [Instr.gfmul, .sboxf, .keyexp, .encE, .avalPt], ∃ t w, exec i (testIssued 1 1) = .next t ∧
      exec i (setTurns [.core] { testIssued 1 1 with result := 7 }) = .next w) ∧
    (testIssued 1 1).latch = (setTurns [.core] { testIssued 1 1 with result := 7 }).latch ∧
    1 ≤ (testIssued 1 1).latch.trials.toNat ∧ (testIssued 1 1).latch.trials.toNat ≤ Config.params.tMax := by
  refine ⟨fun i _ => ?_, rfl, by decide, witness_tMax.1⟩
  cases i <;> exact ⟨_, _, rfl, rfl⟩

/-- OutputsAppearWhenBusyClears: the step that issues. -/
theorem witness_busy_after : ∃ t, step (setPending [opWr .cmd 1] State.reset) = .next t ∧ t.status.busy = true := ⟨_, rfl, rfl⟩

/-- ErrorStaysUntilNextIssue: from an idle state with ERR set, a step that idles, one that issues, one that resets. -/
theorem witness_error :
    testErred.status.busy = false ∧ testErred.status.err = true ∧ (∃ t, step testErred = .next t) ∧
    (∃ t, step (setPending [opWr .cmd 1] testErred) = .next t ∧ t.status.busy = true) ∧
    ∃ t, step (setTurns [.reset] testErred) = .next t ∧ t.status.err = false :=
  ⟨rfl, rfl, ⟨_, rfl⟩, ⟨_, rfl, rfl⟩, ⟨_, rfl, rfl⟩⟩

/-- StatusReadAfterIssueRaces: both orders of the turns. -/
theorem witness_race :
    State.reset.status.busy = false ∧
    ∀ ts ∈ [[Turn.host, .host], [Turn.host, .core, .host]],
      (setTurns ts (setPending [opWr .cmd 1, opRd .status] State.reset)).env.pending =
        [.write 0x00000 .word 1, .read 0x00004 .word] ∧
      (setTurns ts (setPending [opWr .cmd 1, opRd .status] State.reset)).env.turns = ts := by decide

/-- OnlyBadHostAccessesFault: both faults. -/
theorem witness_faults :
    step (setPending [.write 0x0002C .word 0] State.reset) = .fault (.busError 0x0002C) ∧
    step (setPending [opRdTrec0 0] State.reset) = .fault (.readUnwritten 0x10000) := by
  refine ⟨rfl, ?_⟩
  have h : hostRead 0x10000 .word State.reset = .fault (.readUnwritten 0x10000) := by
    have hp := witness_tMax.1
    have ht : accessTarget Config.params.tMax 0x10000 .word = some (.trecWord 0x10000) := by
      show (if trecBase ≤ 0x10000 ∧ 0x10000 < trecBase + 8 * Config.params.tMax then some (BusTarget.trecWord 0x10000) else none) = _
      rw [if_pos ⟨Nat.le_refl _, by unfold trecBase; omega⟩]
    simp only [hostRead, hostReadUnder, ht]
    rfl
  exact h

end Sys2Proof.Machine
end

section
/-! The invariants of the core (10_state.md): STATUS, the command in flight, TREC and what LAST_EXP names. Each is kept by every `Change`,
which is all that a step can do to the core (`step_change`). -/

namespace Sys2Proof.Machine

/-- A property of the core alone, kept by every change of the core, is kept by every step. -/
theorem step_keeps (I : State → Prop) (ignoresEnv : ∀ s e, I { s with env := e } ↔ I s)
    (keeps : ∀ s t, Change s t → I s → I t) (s t : State) (hs : I s) (hstep : step s = .next t) : I t :=
  (ignoresEnv t s.env).mp (keeps s _ (step_change s t hstep) hs)

/-! STATUS and the command in flight -/

theorem Status.Legal.issued {st : Status} (h : st.Legal) : st.issued.Legal := by
  obtain ⟨-, -, -, hexp, -⟩ := h
  exact ⟨by simp, by simp, by simp, hexp, by simp⟩

theorem Status.Legal.completed {st : Status} (h : st.Legal) : st.completed.Legal := by
  obtain ⟨-, hcode, hle, hexp, -⟩ := h
  exact ⟨by simp, hcode, hle, hexp, by simp⟩

theorem Status.Legal.failed (e : CmdError) {st : Status} (h : st.Legal) : (st.failed e).Legal := by
  obtain ⟨-, -, -, hexp, -⟩ := h
  exact ⟨by simp, iff_of_true (errorCode_ne_zero e) rfl, errorCode_le e, hexp, by simp⟩

theorem Status.Legal.named (x : Experiment) {st : Status} (h : st.Legal) : Status.Legal { st with lastExp := experimentCode x } := by
  obtain ⟨hbusy, hcode, hle, -, herr⟩ := h
  exact ⟨hbusy, hcode, hle, (experimentCode_ne x).2, herr⟩

theorem Status.reset_legal : Status.reset.Legal := by decide

/-- A state that is not busy has no command in flight to hold. -/
theorem commandHeld_of_idle (s : State) (idle : s.status.busy = false) : CommandHeld s := by
  simp [CommandHeld, idle]

/-- Whatever a step does to the core keeps STATUS legal. -/
theorem change_keeps_status_legal (s t : State) (change : Change s t) (legal : s.status.Legal) : t.status.Legal := by
  cases change with
  | idle => exact legal
  | operands => exact legal
  | issued => exact legal.issued
  | result => exact legal.completed
  | keys => exact legal.completed
  | error e => exact legal.failed e
  | harness x => exact (legal.named x).completed
  | reset => exact Status.reset_legal

/-- Only an issue makes the core busy, and it latches the word it stores in CMD. -/
theorem change_keeps_commandHeld (s t : State) (change : Change s t) (held : CommandHeld s) : CommandHeld t := by
  cases change with
  | idle => exact held
  | operands => exact held
  | issued => exact fun _ => rfl
  | result => exact commandHeld_of_idle _ rfl
  | keys => exact commandHeld_of_idle _ rfl
  | error => exact commandHeld_of_idle _ rfl
  | harness => exact commandHeld_of_idle _ rfl
  | reset => exact commandHeld_of_idle _ rfl

/-- Settles O57: `step_change` says what a step can do, and each such change keeps both halves. -/
theorem statusStaysLegal : Obligations.StatusStaysLegal := by
  intro s t legal held hstep
  have hlegal := step_keeps (fun s => s.status.Legal) (fun _ _ => Iff.rfl) change_keeps_status_legal s t legal hstep
  have hheld := step_keeps CommandHeld (fun _ _ => Iff.rfl) change_keeps_commandHeld s t held hstep
  exact ⟨hlegal, hheld⟩

/-! TREC -/

/-- Every distance of a trial is a number of 1 bits of a block (44_harness.md R193). -/
theorem harness_distances_le (P : Params) (x : Experiment) (n : Nat) (seed : BusWord) (force0 : Bool) :
    ∀ r ∈ harness P x n seed force0, r.dB ≤ 16 ∧ r.dE ≤ 16 := by
  intro r hr
  obtain ⟨i, -, rfl⟩ := List.mem_map.mp hr
  exact ⟨popcount_le _, popcount_le _⟩

/-- The reserved bits of TREC word 1 are those outside [3:0], [4], [12:8] and [20:16] (10_state.md R43). -/
theorem recordReserved_getLsbD (i : Nat) (hi : i < 32) :
    recordReserved.getLsbD i = ((5 ≤ i && i < 8) || (13 ≤ i && i < 16) || 21 ≤ i) := by
  revert i; decide

theorem recordWord1_reserved (r : TrialRecord) (hB : r.dB ≤ 16) (hE : r.dE ≤ 16) : recordWord1 r &&& recordReserved = 0 := by
  refine BitVec.eq_of_getLsbD_eq fun i hi => ?_
  rw [BitVec.getLsbD_and, recordWord1_getLsbD r hB hE i hi, recordReserved_getLsbD i hi]
  grind

/-- Field [12:8] of TREC word 1 is the baseline distance (44_harness.md R195). -/
theorem recordWord1_dB (r : TrialRecord) (hB : r.dB ≤ 16) (hE : r.dE ≤ 16) :
    (recordWord1 r).extractLsb' 8 5 = BitVec.ofNat 5 r.dB := by
  refine BitVec.eq_of_getLsbD_eq fun i hi => ?_
  rw [BitVec.getLsbD_extractLsb', recordWord1_getLsbD r hB hE (8 + i) (by omega)]
  rw [if_neg (by omega), if_neg (by omega), if_neg (by omega), if_pos (by omega), Nat.add_sub_cancel_left,
    BitVec.getLsbD_ofNat, BitVec.getLsbD_ofNat]
  simp [hi, show i < 32 by omega]

/-- Field [20:16] of TREC word 1 is the enhanced distance (44_harness.md R195). -/
theorem recordWord1_dE (r : TrialRecord) (hB : r.dB ≤ 16) (hE : r.dE ≤ 16) :
    (recordWord1 r).extractLsb' 16 5 = BitVec.ofNat 5 r.dE := by
  refine BitVec.eq_of_getLsbD_eq fun i hi => ?_
  rw [BitVec.getLsbD_extractLsb', recordWord1_getLsbD r hB hE (16 + i) (by omega)]
  rw [if_neg (by omega), if_neg (by omega), if_neg (by omega), if_neg (by omega), if_neg (by omega), if_pos (by omega),
    Nat.add_sub_cancel_left, BitVec.getLsbD_ofNat, BitVec.getLsbD_ofNat]
  simp [hi, show i < 32 by omega]

/-- A TREC word of a record that is not among those written stays. -/
theorem readWord_writeRecords_outside (m : Memory) (rs : List TrialRecord) (a : Nat) (h : trecBase + 8 * rs.length ≤ a) :
    Memory.readWord (writeRecords m rs) a = Memory.readWord m a := by
  simp only [Memory.readWord]
  rw [readByte_writeRecords_outside m rs a (.inr h), readByte_writeRecords_outside m rs (a + 1) (.inr (by omega)),
    readByte_writeRecords_outside m rs (a + 2) (.inr (by omega)), readByte_writeRecords_outside m rs (a + 3) (.inr (by omega))]

/-- Records are written whole, so whole records stay whole (20_memory.md R57). -/
theorem recordsWhole_writeRecords (m : Memory) (rs : List TrialRecord) (whole : RecordsWhole m) :
    RecordsWhole (writeRecords m rs) := by
  intro i j hj
  have hfirst := readByte_writeRecords m rs i 0 (by omega)
  rw [Nat.add_zero] at hfirst
  rw [trecWord0, readByte_writeRecords m rs i j hj, hfirst]
  cases rs[i]? with
  | none => exact whole i j hj
  | some r => simp [recordBytes_length, hj]

/-- Word 1 of a record is the record's, if it was just written, or as legal as before. -/
theorem recordWordsLegal_writeRecords (m : Memory) (rs : List TrialRecord) (hrs : ∀ r ∈ rs, r.dB ≤ 16 ∧ r.dE ≤ 16)
    (legal : RecordWordsLegal m) : RecordWordsLegal (writeRecords m rs) := by
  intro i w hw
  cases hr : rs[i]? with
  | none =>
    rw [readWord_writeRecords_outside m rs _ (by simp [trecWord1] at hr ⊢; omega)] at hw
    exact legal i w hw
  | some r =>
    obtain ⟨hB, hE⟩ := hrs r (List.mem_of_getElem? hr)
    obtain rfl : recordWord1 r = w := Option.some.inj ((readWord_writeRecords m rs i r hr).2.symm.trans hw)
    refine ⟨recordWord1_reserved r hB hE, ?_, ?_⟩
    · rw [recordWord1_dB r hB hE, BitVec.toNat_ofNat]; omega
    · rw [recordWord1_dE r hB hE, BitVec.toNat_ofNat]; omega

/-- Writing a run's records of at most T_MAX trials keeps TREC legal (44_harness.md R195). -/
theorem trecLegal_writeRecords (tMax : Nat) (m : Memory) (rs : List TrialRecord) (hlen : rs.length ≤ tMax)
    (hrs : ∀ r ∈ rs, r.dB ≤ 16 ∧ r.dE ≤ 16) (legal : TrecLegal tMax m) : TrecLegal tMax (writeRecords m rs) := by
  obtain ⟨hwf, hwindow, hwhole, hwords⟩ := legal
  refine ⟨writeBytes_wf _ _ _ hwf, fun c hc => ?_, recordsWhole_writeRecords m rs hwhole, recordWordsLegal_writeRecords m rs hrs hwords⟩
  rcases mem_writeBytes _ _ _ c hc with hold | hnew
  · exact hwindow c hold
  · rw [recordsBytes_length] at hnew
    omega

theorem trecLegal_nil (tMax : Nat) : TrecLegal tMax [] := by
  refine ⟨List.Pairwise.nil, by simp, fun i j _ => by simp [readByte_nil], fun i w hw => ?_⟩
  obtain ⟨b, -, -, -, hb, -⟩ := (readWord_eq_some _ _ _).mp hw
  cases hb

/-- Whatever a step does to the core keeps TREC legal: only a harness run and a reset write it. -/
theorem change_keeps_trec_legal (s t : State) (change : Change s t) (legal : TrecLegal Config.params.tMax s.trec) :
    TrecLegal Config.params.tMax t.trec := by
  cases change with
  | idle => exact legal
  | operands => exact legal
  | issued => exact legal
  | result => exact legal
  | keys => exact legal
  | error => exact legal
  | harness x n seed force0 _ _ hle =>
    exact trecLegal_writeRecords _ _ _ (by rwa [harness_length]) (harness_distances_le _ _ _ _ _) legal
  | reset => exact trecLegal_nil _

/-- Settles O58: by what a step can do to TREC. -/
theorem trecStaysLegal : Obligations.TrecStaysLegal :=
  step_keeps (fun s => TrecLegal Config.params.tMax s.trec) (fun _ _ => Iff.rfl) change_keeps_trec_legal

/-! What LAST_EXP names -/

/-- After a run its records are held. -/
theorem recordsHeld_writeRecords (m : Memory) (rs : List TrialRecord) : RecordsHeld (writeRecords m rs) rs :=
  fun i hi => readWord_writeRecords m rs i rs[i] (List.getElem?_eq_getElem hi)

/-- A run of a legal number of trials leaves its own records and statistics, under its own code (44_harness.md R195, R199). -/
theorem outputsHeld_writeHarness (P : Params) (x : Experiment) (n : Nat) (seed : BusWord) (force0 : Bool) (s : State)
    (pos : 1 ≤ n) (le : n ≤ P.tMax) : OutputsHeld P (complete (writeHarness x (harness P x n seed force0) s)) := by
  refine ⟨fun hzero => absurd hzero (experimentCode_ne x).1, fun y hy => ?_⟩
  obtain rfl := experimentCode_inj x y hy
  exact ⟨n, seed, force0, pos, le, recordsHeld_writeRecords _ _, rfl, rfl⟩

/-- Reset leaves no run, and LAST_EXP = 0. -/
theorem outputsHeld_resetCore (P : Params) (s : State) : OutputsHeld P (resetCore s) :=
  ⟨fun _ => ⟨rfl, rfl, rfl⟩, fun x hx => absurd hx.symm (experimentCode_ne x).1⟩

/-- Whatever a step does to the core, LAST_EXP goes on naming what TREC and STAT hold. -/
theorem change_keeps_outputsHeld (s t : State) (change : Change s t) (held : OutputsHeld Config.params s) :
    OutputsHeld Config.params t := by
  cases change with
  | idle => exact held
  | operands => exact held
  | issued => exact held
  | result => exact held
  | keys => exact held
  | error => exact held
  | harness x n seed force0 _ pos le => exact outputsHeld_writeHarness _ x n seed force0 s pos le
  | reset => exact outputsHeld_resetCore _ s

/-- Settles O59: by what a step can do to the outputs. -/
theorem outputsDescribeLastRun : Obligations.OutputsDescribeLastRun :=
  step_keeps (OutputsHeld Config.params) (fun _ _ => Iff.rfl) change_keeps_outputsHeld

/-- Settles O60: the reset state is what a reset leaves, and TREC is empty. -/
theorem resetStateIsGood : Obligations.ResetStateIsGood :=
  ⟨Status.reset_legal, commandHeld_of_idle _ rfl, trecLegal_nil _, outputsHeld_resetCore _ State.reset⟩

end Sys2Proof.Machine
end

section
/-! What the host reads and writes at a register's or a TREC word's address, and which command writes which output (10_state.md). -/

namespace Sys2Proof.Machine

/-! Where an address leads -/

theorem registerAddr_aligned (r : Register) : (registerAddr r).extractLsb' 0 2 = 0 := by cases r <;> decide

/-- The registers lie below the TREC window (20_memory.md R52). -/
theorem registerAddr_lt_trecBase (r : Register) : (registerAddr r).toNat < trecBase := by cases r <;> decide

theorem tMax_le (P : Params) : P.tMax ≤ 8192 := P.tMaxPred.isLt

/-- A word access at a register's address reaches that register (20_memory.md R52). -/
theorem accessTarget_registerAddr (tMax : Nat) (r : Register) : accessTarget tMax (registerAddr r) .word = some (.register r) := by
  simp [accessTarget, registerAddr_aligned, busTarget, registerAt_addr]

/-- No register stands at or above the TREC window. -/
theorem registerAt_of_trecBase_le (a : HostAddr) (h : trecBase ≤ a.toNat) : registerAt a = none := by
  cases hr : registerAt a with
  | none => rfl
  | some r =>
    have := registerAddr_lt_trecBase r
    rw [registerAddr_of_registerAt a r hr] at this
    omega

/-- A word access at word `j` of record `i` reaches that TREC word (20_memory.md R56). -/
theorem accessTarget_trecWord (tMax i j : Nat) (hmax : tMax ≤ 8192) (hi : i < tMax) (hj : j < 2) :
    accessTarget tMax (BitVec.ofNat 17 (0x10000 + 8 * i + 4 * j)) .word = some (.trecWord (0x10000 + 8 * i + 4 * j)) := by
  have hnat : (BitVec.ofNat 17 (0x10000 + 8 * i + 4 * j)).toNat = 0x10000 + 8 * i + 4 * j := by
    rw [BitVec.toNat_ofNat, Nat.mod_eq_of_lt (by omega)]
  have haligned : (BitVec.ofNat 17 (0x10000 + 8 * i + 4 * j)).extractLsb' 0 2 = 0 := by
    apply BitVec.eq_of_toNat_eq
    rw [BitVec.extractLsb'_toNat, hnat]
    simp
    omega
  have hwindow : trecBase ≤ 0x10000 + 8 * i + 4 * j ∧ 0x10000 + 8 * i + 4 * j < trecBase + 8 * tMax := by
    unfold trecBase; omega
  rw [accessTarget, if_pos ⟨rfl, haligned⟩, busTarget, registerAt_of_trecBase_le _ (by rw [hnat]; exact hwindow.1), hnat]
  exact if_pos hwindow

/-! What an access there does -/

/-- A host write at a register's address is that register's write. -/
theorem hostWrite_registerAddr (r : Register) (v : BusWord) (s : State) :
    hostWrite (registerAddr r) .word v s = .next (writeRegister r v s) := by
  simp only [hostWrite, hostWriteUnder, accessTarget_registerAddr]

/-- An idle read at a register's address answers the register's word. -/
theorem hostRead_registerAddr_idle (r : Register) (s : State) (idle : s.status.busy = false) :
    hostRead (registerAddr r) .word s = .next (answer (registerAddr r) (readRegister r s) s) := by
  simp [hostRead, hostReadUnder, accessTarget_registerAddr, idle]

/-- An idle read of a written TREC word answers it. -/
theorem hostRead_trecWord_idle (s : State) (i j : Nat) (w : BusWord) (hi : i < Config.params.tMax) (hj : j < 2)
    (idle : s.status.busy = false) (written : Memory.readWord s.trec (0x10000 + 8 * i + 4 * j) = some w) :
    hostRead (BitVec.ofNat 17 (0x10000 + 8 * i + 4 * j)) .word s =
      .next (answer (BitVec.ofNat 17 (0x10000 + 8 * i + 4 * j)) w s) := by
  simp [hostRead, hostReadUnder, accessTarget_trecWord _ i j (tMax_le Config.params) hi hj, idle, written]

/-! The fields of a word -/

/-- A field is read off bit by bit. -/
theorem extractLsb'_eq_of_getLsbD {n len : Nat} (w : BitVec n) (start : Nat) (v : BitVec len)
    (h : ∀ i < len, w.getLsbD (start + i) = v.getLsbD i) : w.extractLsb' start len = v := by
  refine BitVec.eq_of_getLsbD_eq fun i hi => ?_
  rw [BitVec.getLsbD_extractLsb', h i hi]
  simp [hi]

/-- STATUS, bit by bit (10_state.md R27). -/
theorem statusWord_getLsbD (st : Status) (i : Nat) :
    (statusWord st).getLsbD i =
      if i = 0 then st.busy else if i = 1 then st.done else if i = 2 then st.err else if i = 3 then false
      else if i < 8 then st.errcode.getLsbD (i - 4) else st.lastExp.getLsbD (i - 8) := by
  simp only [statusWord, BitVec.getLsbD_append, BitVec.getLsbD_ofBool, BitVec.getLsbD_zero]
  grind

/-- MINMAX, bit by bit (10_state.md R42). -/
theorem minmaxWord_getLsbD (st : Stats) (i : Nat) :
    (minmaxWord st).getLsbD i = if i < 5 then st.min.getLsbD i else if i < 8 then false else st.max.getLsbD (i - 8) := by
  simp only [minmaxWord, BitVec.getLsbD_append, BitVec.getLsbD_zero]
  grind

/-- CTRL, bit by bit (10_state.md R32). -/
theorem readRegister_ctrl_getLsbD (s : State) (i : Nat) : (readRegister .ctrl s).getLsbD i = (decide (i = 0) && s.ctrl) := by
  simp only [readRegister, BitVec.getLsbD_append, BitVec.getLsbD_ofBool, BitVec.getLsbD_zero]
  grind

/-- STATUS's fields stand at their places, and its other bits are 0 (10_state.md R27). -/
theorem statusWord_fields (st : Status) :
    (statusWord st).getLsbD 0 = st.busy ∧ (statusWord st).getLsbD 1 = st.done ∧ (statusWord st).getLsbD 2 = st.err ∧
      (statusWord st).getLsbD 3 = false ∧ (statusWord st).extractLsb' 4 4 = st.errcode ∧
      (statusWord st).extractLsb' 8 2 = st.lastExp ∧ (statusWord st).extractLsb' 10 22 = 0#22 := by
  refine ⟨statusWord_getLsbD st 0, statusWord_getLsbD st 1, statusWord_getLsbD st 2, statusWord_getLsbD st 3, ?_, ?_, ?_⟩ <;>
    refine extractLsb'_eq_of_getLsbD _ _ _ fun i hi => ?_ <;> rw [statusWord_getLsbD]
  · grind
  · grind
  · grind

/-- MINMAX's fields stand at their places, and its other bits are 0 (10_state.md R42). -/
theorem minmaxWord_fields (st : Stats) :
    (minmaxWord st).extractLsb' 0 5 = st.min ∧ (minmaxWord st).extractLsb' 5 3 = 0#3 ∧
      (minmaxWord st).extractLsb' 8 5 = st.max ∧ (minmaxWord st).extractLsb' 13 19 = 0#19 := by
  refine ⟨?_, ?_, ?_, ?_⟩ <;> refine extractLsb'_eq_of_getLsbD _ _ _ fun i hi => ?_ <;> rw [minmaxWord_getLsbD]
  · grind
  · grind
  · grind
  · grind

/-- CTRL reads its one bit, and 0 above (10_state.md R32). -/
theorem readRegister_ctrl_fields (s : State) :
    (readRegister .ctrl s).getLsbD 0 = s.ctrl ∧ (readRegister .ctrl s).extractLsb' 1 31 = 0#31 := by
  refine ⟨readRegister_ctrl_getLsbD s 0, extractLsb'_eq_of_getLsbD _ _ _ fun i hi => ?_⟩
  simp [readRegister_ctrl_getLsbD]

/-- A 16-bit register reads 0 in its upper half (20_memory.md R55). -/
theorem setWidth_upper_half (v : Block) : (v.setWidth 32).extractLsb' 16 16 = 0#16 := by
  refine extractLsb'_eq_of_getLsbD _ _ _ fun i _ => ?_
  simp [BitVec.getLsbD_setWidth]

/-- Settles O43: an access reaches what its address names, and each register's word is read off field by field. -/
theorem idleReadsReturnStoredWords : Obligations.IdleReadsReturnStoredWords := by
  refine ⟨fun s r idle => hostRead_registerAddr_idle r s idle,
    fun s i j w hi hj idle written => hostRead_trecWord_idle s i j w hi hj idle written,
    fun s => ⟨statusWord_fields s.status, ⟨rfl, rfl, rfl⟩, ⟨rfl, rfl, rfl⟩, ⟨rfl, rfl, rfl⟩, ⟨rfl, rfl, rfl⟩, ⟨rfl, rfl, rfl⟩,
      ?_, (readRegister_ctrl_fields s).1, (readRegister_ctrl_fields s).2, ?_⟩⟩
  · simp only [List.forall_mem_cons]
    exact ⟨setWidth_upper_half _, setWidth_upper_half _, setWidth_upper_half _, setWidth_upper_half _, setWidth_upper_half _,
      setWidth_upper_half _, by simp⟩
  · simp only [List.forall_mem_cons]
    exact ⟨minmaxWord_fields _, minmaxWord_fields _, by simp⟩

/-! Operand writes -/

/-- A 16-bit register holds a word's lower half, and reading it back masks the word (10_state.md R33, R34). -/
theorem setWidth_lower_half (v : BusWord) : (v.setWidth 16).setWidth 32 = v &&& 0x0000FFFF := by
  refine BitVec.eq_of_getLsbD_eq fun i hi => ?_
  have hmask : (0x0000FFFF : BusWord).getLsbD i = decide (i < 16) := by revert i; decide
  rw [BitVec.getLsbD_and, hmask]
  simp [BitVec.getLsbD_setWidth, hi, Bool.and_comm]

/-- CTRL written and read back masks the word (10_state.md R32). -/
theorem readRegister_ctrl_written (v : BusWord) (s : State) :
    readRegister .ctrl { s with ctrl := v.getLsbD 0 } = v &&& 0x00000001 := by
  refine BitVec.eq_of_getLsbD_eq fun i hi => ?_
  have hmask : (0x00000001 : BusWord).getLsbD i = decide (i = 0) := by revert i; decide
  rw [readRegister_ctrl_getLsbD, BitVec.getLsbD_and, hmask]
  by_cases h : i = 0 <;> simp [h]

/-- Settles O46: a write at a register's address is that register's write. -/
theorem operandWriteReadBack : Obligations.OperandWriteReadBack := by
  intro s v
  have hwrite := fun r => hostWrite_registerAddr r v s
  have hlow : v.extractLsb' 0 16 = v.setWidth 16 := BitVec.setWidth_eq_extractLsb' (by decide) |>.symm
  refine ⟨?_, ?_, hwrite .ctrl, hwrite .trials, hwrite .seed, setWidth_lower_half v, setWidth_lower_half v,
    readRegister_ctrl_written v s, rfl, rfl⟩
  · rw [← hlow]; exact hwrite .opa
  · rw [← hlow]; exact hwrite .opb

/-- Settles O50: each of the 19 registers is 0 in the reset state, and TREC is empty. -/
theorem resetRegistersAreZero : Obligations.ResetRegistersAreZero :=
  ⟨fun r => by cases r <;> rfl, readByte_nil, rfl⟩

/-! Which command writes which output -/

/-- A harness command that changes TREC, STAT or LAST_EXP had a legal trial count, completed, and left its code (10_state.md R31). -/
theorem runHarness_outputs (P : Params) (x : Experiment) (s : State)
    (changed : ((runHarness P x s).trec, (runHarness P x s).statB, (runHarness P x s).statE, (runHarness P x s).status.lastExp) ≠
      (s.trec, s.statB, s.statE, s.status.lastExp)) :
    (runHarness P x s).status.done = true ∧ (runHarness P x s).status.err = s.status.err ∧
      (runHarness P x s).status.lastExp = experimentCode x ∧ 1 ≤ s.latch.trials.toNat ∧ s.latch.trials.toNat ≤ P.tMax := by
  rcases runHarness_cases P x s with ⟨e, -, h⟩ | ⟨pos, le, h⟩ <;> rw [h] at changed ⊢
  · exact absurd rfl changed
  · exact ⟨rfl, rfl, rfl, pos, le⟩

/-- A harness command writes neither RESULT nor a round key. -/
theorem runHarness_frame (P : Params) (x : Experiment) (s : State) :
    (runHarness P x s).result = s.result ∧ (runHarness P x s).rk0 = s.rk0 ∧ (runHarness P x s).rk1 = s.rk1 ∧
      (runHarness P x s).rk2 = s.rk2 := by
  rcases runHarness_cases P x s with ⟨e, -, h⟩ | ⟨-, -, h⟩ <;> rw [h] <;> exact ⟨rfl, rfl, rfl, rfl⟩

/-- What of `t`'s outputs differs from `s`'s was written by the command in flight in `s` (10_state.md R31, R35, R36). -/
def WrittenByCommandInFlight (s t : State) : Prop :=
  (t.result ≠ s.result → s.status.busy = true ∧ ∃ i ∈ resultCommands, decode s.latch.cmd = some i) ∧
  ((t.rk0, t.rk1, t.rk2) ≠ (s.rk0, s.rk1, s.rk2) → s.status.busy = true ∧ decode s.latch.cmd = some .keyexp) ∧
  ((t.trec, t.statB, t.statE, t.status.lastExp) ≠ (s.trec, s.statB, s.statE, s.status.lastExp) →
    s.status.busy = true ∧ t.status.done = true ∧ t.status.err = s.status.err ∧
      ∃ x, decode s.latch.cmd = some (avalancheInstr x) ∧ t.status.lastExp = experimentCode x ∧
        1 ≤ s.latch.trials.toNat ∧ s.latch.trials.toNat ≤ Config.params.tMax)

/-- Outputs that stay need no command. -/
theorem SameOutputs.writtenByCommandInFlight {s t : State} (same : SameOutputs s t) : WrittenByCommandInFlight s t := by
  obtain ⟨hresult, hk0, hk1, hk2, hB, hE, htrec, hexp⟩ := same
  exact ⟨absurd hresult, absurd (by rw [hk0, hk1, hk2]), absurd (by rw [htrec, hB, hE, hexp])⟩

/-- CORE's move writes what the command it performs writes. -/
theorem coreMove_writtenByCommandInFlight (s t : State) (h : coreMove s = .next t) : WrittenByCommandInFlight s t := by
  rcases coreMove_cases s t h with ⟨-, rfl⟩ | ⟨-, -, rfl⟩ | ⟨busy, i, hi, hdec, v, rfl⟩ | ⟨busy, hdec, k0, k1, k2, rfl⟩ |
    ⟨busy, x, hdec, rfl⟩
  case inl => exact SameOutputs.writtenByCommandInFlight ⟨rfl, rfl, rfl, rfl, rfl, rfl, rfl, rfl⟩
  case inr.inl => exact SameOutputs.writtenByCommandInFlight ⟨rfl, rfl, rfl, rfl, rfl, rfl, rfl, rfl⟩
  case inr.inr.inl => exact ⟨fun _ => ⟨busy, i, hi, hdec⟩, absurd rfl, absurd rfl⟩
  case inr.inr.inr.inl => exact ⟨absurd rfl, fun _ => ⟨busy, hdec⟩, absurd rfl⟩
  case inr.inr.inr.inr =>
    obtain ⟨hresult, hk0, hk1, hk2⟩ := runHarness_frame Config.params x s
    refine ⟨absurd hresult, absurd (by rw [hk0, hk1, hk2]), fun changed => ?_⟩
    obtain ⟨hdone, herr, hexp, pos, le⟩ := runHarness_outputs Config.params x s changed
    exact ⟨busy, hdone, herr, x, hdec, hexp, pos, le⟩

/-- Settles O52: HOST's move leaves the outputs, and CORE's writes those of its command. -/
theorem outputsWrittenOnlyByTheirCommands : Obligations.OutputsWrittenOnlyByTheirCommands := by
  intro s t hstep noReset
  obtain ⟨u, e, hturn, -, -, -, hreset⟩ := step_turn s
  rw [hturn] at hstep
  cases u with
  | host => exact (hostMove_outputs { s with env := e } t hstep).writtenByCommandInFlight
  | core => exact coreMove_writtenByCommandInFlight { s with env := e } t hstep
  | reset => exact absurd (hreset rfl) noReset

end Sys2Proof.Machine
end

section
/-! The host bus (20_memory.md): what an access at each kind of address does, what HOST's turn makes of the pending access, and that an
operand write and CORE's move do not meet. -/

namespace Sys2Proof.Machine

/-! Where an access leads -/

/-- No register stands in the two gaps of the map below the TREC window (20_memory.md R52). -/
theorem registerAddr_outside_gaps (r : Register) : (registerAddr r).toNat ≠ 0x2C ∧ (registerAddr r).toNat < 0x50 := by
  cases r <;> decide

/-- An unmapped address names nothing (20_memory.md R53). -/
theorem busTarget_of_unmapped (tMax : Nat) (a : HostAddr) (h : Unmapped tMax a) : busTarget tMax a = none := by
  have hreg : registerAt a = none := by
    cases hr : registerAt a with
    | none => rfl
    | some r =>
      obtain ⟨hgap, hlow⟩ := registerAddr_outside_gaps r
      rw [registerAddr_of_registerAt a r hr] at hgap hlow
      unfold Unmapped at h
      omega
  have hwindow : ¬(trecBase ≤ a.toNat ∧ a.toNat < trecBase + 8 * tMax) := by
    unfold Unmapped at h
    unfold trecBase
    omega
  simp [busTarget, hreg, hwindow]

/-- A narrow, unaligned or unmapped access reaches nothing (20_memory.md R51, R53). -/
theorem accessTarget_of_bad (tMax : Nat) (a : HostAddr) (w : AccessWidth)
    (bad : w ≠ .word ∨ a.extractLsb' 0 2 ≠ 0 ∨ Unmapped tMax a) : accessTarget tMax a w = none := by
  unfold accessTarget
  split
  · next hok =>
    obtain ⟨hwidth, haligned⟩ := hok
    rcases bad with narrow | unaligned | unmapped
    · exact absurd hwidth narrow
    · exact absurd haligned unaligned
    · exact busTarget_of_unmapped tMax a unmapped
  · rfl

/-- Settles O40: such an access reaches nothing, and an access that reaches nothing is a bus error. -/
theorem badAccessesAreBusErrors : Obligations.BadAccessesAreBusErrors := by
  intro s a w v bad
  have hnone := accessTarget_of_bad Config.params.tMax a w bad
  simp [hostRead, hostReadUnder, hostWrite, hostWriteUnder, hnone]

/-- Settles O39: the listed addresses are those of `registerAddr`, and the two words of a record are words 0 and 1 of its window. -/
theorem registerMapAndTrecWindow : Obligations.RegisterMapAndTrecWindow := by
  intro tMax _ hmax
  refine ⟨fun p hp => ?_, fun i hi => ⟨by omega, accessTarget_trecWord tMax i 0 hmax hi (by omega), ?_⟩⟩
  · change p ∈ allRegisters.map (fun r => (registerAddr r, r)) at hp
    obtain ⟨r, -, rfl⟩ := List.mem_map.mp hp
    exact accessTarget_registerAddr tMax r
  · rw [show 0x10004 + 8 * i = 0x10000 + 8 * i + 4 * 1 by omega]
    exact accessTarget_trecWord tMax i 1 hmax hi (by omega)

/-! Reads -/

/-- In every state a read of a register that is no output answers its word (20_memory.md R61). -/
theorem hostRead_registerAddr_stored (r : Register) (s : State) (stored : isOutput r = false) :
    hostRead (registerAddr r) .word s = .next (answer (registerAddr r) (readRegister r s) s) := by
  simp [hostRead, hostReadUnder, accessTarget_registerAddr, stored]

/-- A read of an output register while busy answers a free value (20_memory.md R61). -/
theorem hostRead_registerAddr_busy (r : Register) (s : State) (output : isOutput r = true) (busy : s.status.busy = true) :
    hostRead (registerAddr r) .word s = .next (answerFree (registerAddr r) s) := by
  simp [hostRead, hostReadUnder, accessTarget_registerAddr, output, busy]

/-- A read of a TREC word while busy answers a free value, written or not (20_memory.md R61). -/
theorem hostRead_trecWord_busy (s : State) (i j : Nat) (hi : i < Config.params.tMax) (hj : j < 2) (busy : s.status.busy = true) :
    hostRead (BitVec.ofNat 17 (0x10000 + 8 * i + 4 * j)) .word s =
      .next (answerFree (BitVec.ofNat 17 (0x10000 + 8 * i + 4 * j)) s) := by
  simp [hostRead, hostReadUnder, accessTarget_trecWord _ i j (tMax_le Config.params) hi hj, busy]

/-- Settles O42: the listed registers are the outputs and the others, and a read of each kind is as its rule says. -/
theorem busyOutputReadsAreFree : Obligations.BusyOutputReadsAreFree := by
  refine fun s => ⟨fun busy a ha => ?_, fun r hr => ?_, rfl, rfl, rfl, rfl, rfl⟩
  · rcases ha with ⟨r, hr, rfl⟩ | ⟨i, j, hi, hj, rfl⟩
    · have output : isOutput r = true := by revert r; decide
      exact hostRead_registerAddr_busy r s output busy
    · exact hostRead_trecWord_busy s i j hi hj busy
  · have stored : isOutput r = false := by revert r; decide
    exact hostRead_registerAddr_stored r s stored

/-- Settles O44: a read that is answered answers a stored or a free word, and both touch the answers alone. -/
theorem readsLeaveCoreUnchanged : Obligations.ReadsLeaveCoreUnchanged := by
  intro s t a w hread
  rcases hostReadUnder_next _ a w s t hread with ⟨v, rfl⟩ | ⟨-, rfl⟩
  · exact ⟨rfl, rfl, rfl, v, rfl⟩
  · exact ⟨rfl, rfl, rfl, Config.freeWord s.env.draws, rfl⟩

/-! Writes -/

/-- A write to a TREC word is ignored (20_memory.md R54). -/
theorem hostWrite_trecWord (s : State) (v : BusWord) (i j : Nat) (hi : i < Config.params.tMax) (hj : j < 2) :
    hostWrite (BitVec.ofNat 17 (0x10000 + 8 * i + 4 * j)) .word v s = .next s := by
  simp [hostWrite, hostWriteUnder, accessTarget_trecWord _ i j (tMax_le Config.params) hi hj]

/-- The write of a register that is neither CMD nor an operand is ignored (20_memory.md R54). -/
theorem writeRegister_readOnly (r : Register) (v : BusWord) (s : State) (readOnly : r = .status ∨ isOutput r = true) :
    writeRegister r v s = s := by
  cases r
  case cmd | ctrl | opa | opb | trials | seed => simp [isOutput] at readOnly
  all_goals rfl

/-- Settles O45: the listed registers are STATUS and the outputs, whose write is ignored, as is that of a TREC word. -/
theorem readOnlyWritesIgnored : Obligations.ReadOnlyWritesIgnored := by
  refine fun s v => ⟨fun r hr => ?_, fun i j hi hj => hostWrite_trecWord s v i j hi hj⟩
  have readOnly : r = .status ∨ isOutput r = true := by revert r; decide
  rw [hostWrite_registerAddr, writeRegister_readOnly r v s readOnly]

/-- CMD written while idle issues (20_memory.md R59). -/
theorem writeRegister_cmd_idle (v : BusWord) (s : State) (idle : s.status.busy = false) : writeRegister .cmd v s = issue v s := by
  simp [writeRegister, idle]

/-- CMD written while busy is ignored (20_memory.md R59). -/
theorem writeRegister_cmd_busy (v : BusWord) (s : State) (busy : s.status.busy = true) : writeRegister .cmd v s = s := by
  simp [writeRegister, busy]

/-- Settles O48: a write at address 0 is CMD's write, which issues while idle and is ignored while busy. -/
theorem issueLatchesOperands : Obligations.IssueLatchesOperands := by
  intro s v
  have hwrite : hostWrite 0x00000 .word v s = .next (writeRegister .cmd v s) := hostWrite_registerAddr .cmd v s
  refine ⟨fun idle => ?_, fun busy => ?_⟩
  · rw [hwrite, writeRegister_cmd_idle v s idle, issue_eq]
  · rw [hwrite, writeRegister_cmd_busy v s busy]

/-! An operand write beside the command in flight -/

/-- The ways in which a command in flight completes, each a function of the state it finds: what the command computes from LATCH stands in
the arguments. -/
inductive Completion : (State → State) → Prop
  | result (v : Block) : Completion (completeWithResult v)
  | keys (k0 k1 k2 : Block) : Completion (completeWithKeys k0 k1 k2)
  | error (e : CmdError) : Completion (raiseCmdError e)
  | harness (x : Experiment) (rs : List TrialRecord) : Completion (fun s => complete (writeHarness x rs s))

/-- Two states with one LATCH see a harness command complete in one way (30_encoding.md R71). -/
theorem runHarness_same_latch (P : Params) (x : Experiment) (s u : State) (same : u.latch = s.latch) :
    ∃ f, Completion f ∧ runHarness P x s = f s ∧ runHarness P x u = f u := by
  have htrials : operandTrials u = operandTrials s := by simp only [operandTrials, same]
  have hseed : operandSeed u = operandSeed s := by simp only [operandSeed, same]
  have hforce : operandForce0 u = operandForce0 s := by simp only [operandForce0, same]
  cases hcheck : checkTrials P (operandTrials s) with
  | some e => exact ⟨_, .error e, by simp [runHarness, hcheck], by simp [runHarness, htrials, hcheck]⟩
  | none =>
    exact ⟨_, .harness x (harness P x (operandTrials s) (operandSeed s) (operandForce0 s)), by simp [runHarness, hcheck],
      by simp [runHarness, htrials, hseed, hforce, hcheck]⟩

/-- The two harness commands are the harness run of their experiments (44_harness.md R196, R197). -/
theorem exec_avalancheInstr (x : Experiment) (s : State) :
    exec (avalancheInstr x) s = .next (runHarness Config.params x s) := by
  cases x <;> rfl

/-- Two states with one LATCH see a command complete in one way (30_encoding.md R71). -/
theorem exec_same_latch (i : Instr) (s u : State) (same : u.latch = s.latch) :
    ∃ f, Completion f ∧ exec i s = .next (f s) ∧ exec i u = .next (f u) := by
  have hharness : ∀ x, ∃ f, Completion f ∧ exec (avalancheInstr x) s = .next (f s) ∧ exec (avalancheInstr x) u = .next (f u) := by
    intro x
    obtain ⟨f, hf, hs, hu⟩ := runHarness_same_latch Config.params x s u same
    exact ⟨f, hf, by rw [exec_avalancheInstr, hs], by rw [exec_avalancheInstr, hu]⟩
  have hu : u = { u with latch := s.latch } := by rw [← same]
  cases i
  case avalPt => exact hharness .pt
  case avalKey => exact hharness .key
  case keyexp => rw [hu]; exact ⟨_, .keys _ _ _, rfl, rfl⟩
  all_goals rw [hu]; exact ⟨_, .result _, rfl, rfl⟩

/-- Two busy states with one LATCH see CORE's move complete in one way (30_encoding.md R78). -/
theorem coreMove_same_latch (s u : State) (busy : s.status.busy = true) (busy' : u.status.busy = true) (same : u.latch = s.latch) :
    ∃ f, Completion f ∧ coreMove s = .next (f s) ∧ coreMove u = .next (f u) := by
  cases hdec : decode s.latch.cmd with
  | none => exact ⟨_, .error .illegalCmd, by simp [coreMove, busy, hdec], by simp [coreMove, busy', same, hdec]⟩
  | some i =>
    have hexec : coreMove s = exec i s ∧ coreMove u = exec i u := by simp [coreMove, busy, busy', same, hdec]
    rw [hexec.1, hexec.2]
    exact exec_same_latch i s u same

/-- The registers that feed LATCH at the next issue (20_memory.md R60). -/
def operandRegisters : List Register := [.opa, .opb, .ctrl, .trials, .seed]

/-- An operand write leaves STATUS and LATCH. -/
theorem writeRegister_operand_frame (r : Register) (hr : r ∈ operandRegisters) (v : BusWord) (s : State) :
    (writeRegister r v s).status = s.status ∧ (writeRegister r v s).latch = s.latch := by
  revert r
  simp only [operandRegisters, List.forall_mem_cons]
  exact ⟨⟨rfl, rfl⟩, ⟨rfl, rfl⟩, ⟨rfl, rfl⟩, ⟨rfl, rfl⟩, ⟨rfl, rfl⟩, by simp⟩

/-- A completion writes no operand register and reads none. -/
theorem Completion.writeRegister_comm {f : State → State} (hf : Completion f) (r : Register) (hr : r ∈ operandRegisters)
    (v : BusWord) (s : State) : f (writeRegister r v s) = writeRegister r v (f s) := by
  revert r
  simp only [operandRegisters, List.forall_mem_cons]
  cases hf <;> exact ⟨rfl, rfl, rfl, rfl, rfl, by simp⟩

/-- Settles O47: the write leaves LATCH, so CORE completes in the same way after it, and that completion commutes with the write. -/
theorem operandWritesSpareCommandInFlight : Obligations.OperandWritesSpareCommandInFlight := by
  intro s v busy r hr
  obtain ⟨hstatus, hlatch⟩ := writeRegister_operand_frame r hr v s
  obtain ⟨f, hf, hbefore, hafter⟩ := coreMove_same_latch s (writeRegister r v s) busy (by rw [hstatus, busy]) hlatch
  refine ⟨hostWrite_registerAddr r v s, f s, hbefore, ?_⟩
  rw [hafter, hf.writeRegister_comm r hr v s]

/-! Outputs and BUSY -/

theorem SameOutputs.refl (s : State) : SameOutputs s s := ⟨rfl, rfl, rfl, rfl, rfl, rfl, rfl, rfl⟩

/-- A change that leaves the core busy is no completion and no reset, and the others write no output. -/
theorem change_sameOutputs_of_busy (s t : State) (change : Change s t) (busy : t.status.busy = true) : SameOutputs s t := by
  cases change with
  | idle => exact .refl s
  | operands => exact .refl s
  | issued => exact .refl s
  | result => exact absurd busy Bool.false_ne_true
  | keys => exact absurd busy Bool.false_ne_true
  | error => exact absurd busy Bool.false_ne_true
  | harness => exact absurd busy Bool.false_ne_true
  | reset => exact absurd busy Bool.false_ne_true

/-- Settles O53: by what a step can do to the core. -/
theorem outputsAppearWhenBusyClears : Obligations.OutputsAppearWhenBusyClears :=
  fun s t hstep busy => change_sameOutputs_of_busy s { t with env := s.env } (step_change s t hstep) busy

/-! HOST's turn -/

/-- HOST's turn is used up and HOST moves, also with no turn fixed and the core idle (log 2). -/
theorem step_hostTurn (s : State) (ts : List Turn)
    (turn : s.env.turns = .host :: ts ∨ (s.env.turns = [] ∧ ts = [] ∧ s.status.busy = false)) :
    step s = hostMove (setTurns ts s) := by
  rcases turn with hturns | ⟨hturns, rfl, idle⟩
  · simp [step, machineMove, hturns, turnMove]
  · have hsame : setTurns [] s = s := by simp [setTurns, ← hturns]
    simp [step, machineMove, hturns, defaultTurn, idle, turnMove, hsame]

/-- WAIT is a read of STATUS, with WAIT still to come exactly while BUSY = 1 (30_encoding.md R80, log 16). -/
theorem hostMove_wait (s : State) (rest : List HostOp) (hp : s.env.pending = .wait :: rest) :
    hostMove s = hostRead 0x00004 .word (setPending (if s.status.busy then .wait :: rest else rest) s) := by
  have hread := fun u => hostRead_registerAddr_stored .status u rfl
  have hsame : setPending (.wait :: rest) s = s := by simp [setPending, ← hp]
  have hpoll : hostMove s = hostPoll rest s := by simp [hostMove, hp]
  have hbit : (readRegister .status s).getLsbD 0 = s.status.busy := statusWord_getLsbD s.status 0
  rw [hpoll, show (0x00004 : HostAddr) = registerAddr .status from rfl, hread]
  simp only [hostPoll, hbit]
  cases s.status.busy with
  | false => rfl
  | true => simp only [if_true, hsame]

/-- Settles O7: HOST's turn is HOST's move at the state with the turn used up, by what is pending first. -/
theorem hostTurnMakesPendingAccess : Obligations.HostTurnMakesPendingAccess := by
  intro s ts turn
  rw [step_hostTurn s ts turn]
  refine ⟨fun a w v rest hp => ?_, fun a w rest hp => ?_, fun rest hp => ?_, fun hp => ?_⟩
  · simp [hostMove, hp, setTurns, setPending]
  · simp [hostMove, hp, setTurns, setPending]
  · exact hostMove_wait (setTurns ts s) rest hp
  · simp [hostMove, hp, setTurns]

end Sys2Proof.Machine
end

section
/-! The decoder and the encoder (30_encoding.md): the opcode map both ways, the two fields of a command word, and the structure of OPCODE. -/

namespace Sys2Proof

open Machine

/-! The opcode map -/

/-- The map reads an opcode as a command exactly when it is that command's (30_encoding.md R73, R76): one arm, one row. -/
theorem decodeOpcode_eq_some_iff (op : BitVec 8) (i : Instr) : decodeOpcode op = some i ↔ op = opcode i := by
  constructor
  · intro h
    unfold decodeOpcode at h
    split at h <;> cases h <;> rfl
  · rintro rfl
    cases i <;> rfl

/-- R74's list of reserved values, as a proposition. -/
theorem reservedOpcode_iff (op : BitVec 8) :
    reservedOpcode op = true ↔
      op = 0x00 ∨ op = 0x07 ∨ (0x14 ≤ op.toNat ∧ op.toNat ≤ 0x1F) ∨ 0x22 ≤ op.toNat := by
  simp [reservedOpcode, or_assoc]

/-- No command has a reserved opcode. -/
theorem reservedOpcode_opcode (i : Instr) : reservedOpcode (opcode i) = false := by cases i <;> rfl

/-- The opcodes that no arm lists are R74's reserved ones: the last arm has an opcode that differs from all twenty. -/
theorem decodeOpcode_eq_none_iff (op : BitVec 8) : decodeOpcode op = none ↔ reservedOpcode op = true := by
  constructor
  · intro h
    unfold decodeOpcode at h
    split at h
    case h_21 =>
      simp only [reservedOpcode_iff, BitVec.toNat_eq, BitVec.ofNat_eq_ofNat, BitVec.reduceToNat, imp_false] at *
      omega
    all_goals cases h
  · intro reserved
    cases hdec : decodeOpcode op with
    | none => rfl
    | some i =>
      obtain rfl := (decodeOpcode_eq_some_iff op i).mp hdec
      rw [reservedOpcode_opcode] at reserved
      cases reserved

/-- The commands in the order of the opcode map (30_encoding.md R73). -/
def allInstrs : List Instr :=
  [.gfmul, .sboxf, .sboxi, .xorst, .rkmask, .keyexp, .subnib, .invsubnib, .subnibd, .invsubnibd, .shrows, .invshrows, .mixcol,
    .invmixcol, .encB, .decB, .encE, .decE, .avalPt, .avalKey]

theorem mem_allInstrs (i : Instr) : i ∈ allInstrs := by cases i <;> decide

/-- Different commands have different opcodes. -/
theorem opcode_injective : Function.Injective opcode := by
  intro i j h
  have hi := (decodeOpcode_eq_some_iff (opcode i) i).mpr rfl
  have hj := (decodeOpcode_eq_some_iff (opcode i) j).mpr h
  exact Option.some.inj (hi.symm.trans hj)

/-- Looking an opcode up among the rows of some commands finds the command whose opcode it is. -/
theorem lookup_rows_eq_some_iff (l : List Instr) (op : BitVec 8) (i : Instr) :
    List.lookup op (l.map fun j => (opcode j, j)) = some i ↔ i ∈ l ∧ op = opcode i := by
  induction l with
  | nil => simp
  | cons j l ih =>
    rw [List.map_cons, List.lookup_cons]
    by_cases hop : op = opcode j
    · subst hop
      simp only [beq_self_eq_true, Option.some.injEq, List.mem_cons, opcode_injective.eq_iff]
      exact ⟨fun h => ⟨.inl h.symm, h⟩, fun h => h.2⟩
    · have hne : op = opcode i → i ≠ j := by rintro rfl rfl; exact hop rfl
      simp only [beq_eq_false_iff_ne.mpr hop, ih, List.mem_cons]
      grind

/-- The decoder's twenty arms are the rows of the opcode map (30_encoding.md R76). -/
theorem decodeOpcode_eq_lookup (op : BitVec 8) :
    decodeOpcode op = List.lookup op (allInstrs.map fun i => (opcode i, i)) := by
  refine Option.ext fun i => ?_
  rw [decodeOpcode_eq_some_iff, lookup_rows_eq_some_iff]
  simp [mem_allInstrs]

/-! The command word -/

/-- A command word is its two fields (30_encoding.md R70). -/
theorem reservedField_append_opcodeField (w : BusWord) : reservedField w ++ opcodeField w = w := by
  have hadj : w.extractLsb' 8 24 ++ w.extractLsb' 0 8 = w.extractLsb' 0 32 :=
    BitVec.extractLsb'_append_extractLsb'_eq_extractLsb' (Nat.zero_add 8).symm
  rw [reservedField, opcodeField, hadj, BitVec.extractLsb'_eq_self]

@[simp] theorem reservedField_encode (i : Instr) : reservedField (encode i) = 0 := BitVec.extractLsb'_append_eq_left

@[simp] theorem opcodeField_encode (i : Instr) : opcodeField (encode i) = opcode i := BitVec.extractLsb'_append_eq_right

/-- A word is a command's exactly when RSVD is 0 and OPCODE is the command's (30_encoding.md R70, R73). -/
theorem eq_encode_iff (w : BusWord) (i : Instr) : w = encode i ↔ reservedField w = 0 ∧ opcodeField w = opcode i := by
  constructor
  · rintro rfl
    exact ⟨reservedField_encode i, opcodeField_encode i⟩
  · rintro ⟨hrsvd, hop⟩
    rw [← reservedField_append_opcodeField w, hrsvd, hop]
    rfl

/-- The decoder reads a word as a command exactly when it is that command's word (30_encoding.md R73, R76). -/
theorem decode_eq_some_iff (w : BusWord) (i : Instr) : decode w = some i ↔ w = encode i := by
  rw [eq_encode_iff, ← decodeOpcode_eq_some_iff]
  simp [decode]

/-- The decoder refuses a word for either of R74's two reasons. -/
theorem decode_eq_none_iff (w : BusWord) :
    decode w = none ↔ reservedField w ≠ 0 ∨ reservedOpcode (opcodeField w) = true := by
  rw [← decodeOpcode_eq_none_iff]
  simp [decode, imp_iff_not_or]

/-- Settles O3: both directions of `decode_eq_some_iff`. -/
theorem decodeInvertsEncode : Obligations.DecodeInvertsEncode :=
  ⟨fun i _ => (decode_eq_some_iff (encode i) i).mpr rfl, fun w i => (decode_eq_some_iff w i).mp⟩

/-- Settles O1: each of the six words is its command's, and 0x07 is reserved. -/
theorem spelledOutWordsDecode : Obligations.SpelledOutWordsDecode := by
  have hword := fun w i => (decode_eq_some_iff w i).mpr
  exact ⟨hword _ _ rfl, hword _ _ rfl, hword _ _ rfl, hword _ _ rfl, hword _ _ rfl, hword _ _ rfl,
    (decode_eq_none_iff _).mpr (.inr rfl)⟩

/-- Settles O2: the decoder tests RSVD, and its arms are the rows that the statement lists. -/
theorem decoderFollowsOpcodeMap : Obligations.DecoderFollowsOpcodeMap := by
  intro w
  rw [ite_not, decode, decodeOpcode_eq_lookup]
  rfl

/-! The fields of OPCODE -/

/-- Bit 0 of the opcode of ENC and DEC is the direction, bit 1 the variant (30_encoding.md R72). -/
theorem opcode_cipher_bits (v : Variant) :
    (opcode (encryptInstr v)).getLsbD 0 = false ∧ (opcode (decryptInstr v)).getLsbD 0 = true ∧
      (opcode (encryptInstr v)).getLsbD 1 = decide (v = .enhanced) ∧
      (opcode (decryptInstr v)).getLsbD 1 = decide (v = .enhanced) := by
  cases v <;> decide

/-- Bit 0 of the opcode of AVAL is the flip target (30_encoding.md R72). -/
theorem opcode_avalanche_bit (x : Experiment) : (opcode (avalancheInstr x)).getLsbD 0 = decide (x = .key) := by
  cases x <;> decide

/-- The bits of groups 1 and 2 that hold no field are 0 (30_encoding.md R72). -/
theorem opcode_reserved_bits (i : Instr) :
    ((opcode i).extractLsb' 4 4 = 1#4 → (opcode i).extractLsb' 2 2 = 0#2) ∧
      ((opcode i).extractLsb' 4 4 = 2#4 → (opcode i).extractLsb' 1 3 = 0#3) := by
  cases i <;> decide

/-- Settles O5: the group by the row of each command, then the fields of groups 1 and 2. -/
theorem opcodeFieldStructure : Obligations.OpcodeFieldStructure :=
  ⟨fun i => by cases i <;> rfl, opcode_cipher_bits, opcode_avalanche_bit, opcode_reserved_bits⟩

end Sys2Proof
end

section
/-! The CORE step (30_encoding.md R77, R78): when it idles, fails or performs, how a performed command completes, and which registers each
command writes and reads. -/

namespace Sys2Proof.Machine

/-! The three ways of CORE's move -/

theorem coreMove_idle (s : State) (idle : s.status.busy = false) : coreMove s = .next s := by
  simp [coreMove, idle]

/-- An illegal word in flight ends with ILLEGAL_CMD (60_exceptions.md R223). -/
theorem coreMove_illegal (s : State) (busy : s.status.busy = true) (illegal : decode s.latch.cmd = none) :
    coreMove s = .next (raiseCmdError .illegalCmd s) := by
  simp [coreMove, busy, illegal]

/-- A legal word in flight is performed (30_encoding.md R78). -/
theorem coreMove_legal (s : State) (i : Instr) (busy : s.status.busy = true) (legal : decode s.latch.cmd = some i) :
    coreMove s = exec i s := by
  simp [coreMove, busy, legal]

/-- Settles O4: the decoder refuses for R74's reasons, and CORE then raises ILLEGAL_CMD, which writes STATUS alone. -/
theorem illegalWordsReportError : Obligations.IllegalWordsReportError := by
  refine ⟨fun w => ?_, fun s busy illegal => ?_⟩
  · rw [decode_eq_none_iff, reservedOpcode_iff]
    rfl
  · rw [coreMove_illegal s busy illegal, raiseCmdError_eq]
    rfl

/-- What R78 and R227 leave of a command performed at `s`: it has completed, and ERR and ERRCODE are as they were, or it failed and wrote
STATUS alone. -/
def CompletedFrom (s t : State) : Prop :=
  t.status.busy = false ∧ t.status.done = true ∧ t.env = s.env ∧
    ((t.status.err = s.status.err ∧ t.status.errcode = s.status.errcode) ∨
      ∃ c, c ≠ 0 ∧ t =
        { s with status := { busy := false, done := true, err := true, errcode := c, lastExp := s.status.lastExp } })

/-- Every completion is one of R78's or of R227's. -/
theorem Completion.completedFrom {f : State → State} (hf : Completion f) (s : State) : CompletedFrom s (f s) := by
  cases hf with
  | result => exact ⟨rfl, rfl, rfl, .inl ⟨rfl, rfl⟩⟩
  | keys => exact ⟨rfl, rfl, rfl, .inl ⟨rfl, rfl⟩⟩
  | harness => exact ⟨rfl, rfl, rfl, .inl ⟨rfl, rfl⟩⟩
  | error e => exact ⟨rfl, rfl, rfl, .inr ⟨errorCode e, errorCode_ne_zero e, raiseCmdError_eq e s⟩⟩

/-- A command answers a next state, in which it has completed. -/
theorem exec_completedFrom (i : Instr) (s : State) : ∃ t, exec i s = .next t ∧ CompletedFrom s t := by
  obtain ⟨f, hf, hexec, -⟩ := exec_same_latch i s s rfl
  exact ⟨f s, hexec, hf.completedFrom s⟩

/-- Settles O9: the three ways of CORE's move, the last by how a command completes. -/
theorem coreStepPerformsAndCompletes : Obligations.CoreStepPerformsAndCompletes := by
  refine fun s => ⟨coreMove_idle s, coreMove_illegal s, fun i busy legal => ?_⟩
  obtain ⟨t, hexec, completed⟩ := exec_completedFrom i s
  exact ⟨t, (coreMove_legal s i busy legal).trans hexec, hexec, completed⟩

/-! What a command writes -/

/-- A result command writes RESULT and completes (10_state.md R35). -/
theorem exec_resultCommand (i : Instr) (hi : i ∈ resultCommands) (s : State) :
    ∃ v, exec i s = .next (completeWithResult v s) := by
  cases i
  case keyexp | avalPt | avalKey => simp [resultCommands] at hi
  all_goals exact ⟨_, rfl⟩

/-- KEYEXP writes the expansion of its operand (41_state_and_keyschedule.md R130). -/
theorem exec_keyexp (s : State) :
    exec .keyexp s = .next (completeWithKeys (expandKey Config.params.sbox s.latch.a).k0
      (expandKey Config.params.sbox s.latch.a).k1 (expandKey Config.params.sbox s.latch.a).k2 s) := rfl

/-- A harness command writes TREC, STAT and STATUS, and of TREC its own records (30_encoding.md R77). -/
theorem runHarness_writeSet (P : Params) (x : Experiment) (s : State) :
    runHarness P x s =
        { s with
          trec := (runHarness P x s).trec, statB := (runHarness P x s).statB, statE := (runHarness P x s).statE
          status := (runHarness P x s).status } ∧
      ∀ a, (a < 0x10000 ∨ 0x10000 + 8 * s.latch.trials.toNat ≤ a) →
        Memory.readByte (runHarness P x s).trec a = Memory.readByte s.trec a := by
  rcases runHarness_cases P x s with ⟨e, -, h⟩ | ⟨-, -, h⟩ <;> rw [h]
  · exact ⟨rfl, fun _ _ => rfl⟩
  · refine ⟨rfl, fun a outside => readByte_writeRecords_outside _ _ a ?_⟩
    rw [harness_length]
    exact outside

/-! What a command reads -/

/-- From both states the command writes one and the same RESULT, and completes. -/
def SameResult (i : Instr) (s u : State) : Prop :=
  ∃ v, exec i s = .next (completeWithResult v s) ∧ exec i u = .next (completeWithResult v u)

theorem SameResult.result_eq {i : Instr} {s u t w : State} (same : SameResult i s u) (ht : exec i s = .next t)
    (hw : exec i u = .next w) : t.result = w.result := by
  obtain ⟨v, hs, hu⟩ := same
  obtain rfl := Host.Outcome.next.inj (hs.symm.trans ht)
  obtain rfl := Host.Outcome.next.inj (hu.symm.trans hw)
  rfl

/-- The commands whose one operand is LATCH.a (30_encoding.md R77). -/
def unaryCommands : List Instr := [.sboxf, .sboxi, .rkmask, .subnib, .invsubnib, .shrows, .invshrows, .mixcol, .invmixcol]

/-- The commands whose operands are LATCH.a and LATCH.b (30_encoding.md R77). -/
def binaryCommands : List Instr := [.gfmul, .xorst, .subnibd, .invsubnibd, .encB, .decB]

theorem sameResult_unary (s u : State) (ha : s.latch.a = u.latch.a) : ∀ i ∈ unaryCommands, SameResult i s u := by
  have hu : u = { u with latch := { u.latch with a := s.latch.a } } := by rw [ha]
  rw [hu]
  simp only [unaryCommands, List.forall_mem_cons]
  exact ⟨⟨_, rfl, rfl⟩, ⟨_, rfl, rfl⟩, ⟨_, rfl, rfl⟩, ⟨_, rfl, rfl⟩, ⟨_, rfl, rfl⟩, ⟨_, rfl, rfl⟩, ⟨_, rfl, rfl⟩, ⟨_, rfl, rfl⟩,
    ⟨_, rfl, rfl⟩, by simp⟩

theorem sameResult_binary (s u : State) (ha : s.latch.a = u.latch.a) (hb : s.latch.b = u.latch.b) :
    ∀ i ∈ binaryCommands, SameResult i s u := by
  have hu : u = { u with latch := { u.latch with a := s.latch.a, b := s.latch.b } } := by rw [ha, hb]
  rw [hu]
  simp only [binaryCommands, List.forall_mem_cons]
  exact ⟨⟨_, rfl, rfl⟩, ⟨_, rfl, rfl⟩, ⟨_, rfl, rfl⟩, ⟨_, rfl, rfl⟩, ⟨_, rfl, rfl⟩, ⟨_, rfl, rfl⟩, by simp⟩

/-- The enhanced cipher commands read LATCH.ctrl as well (30_encoding.md R77). -/
theorem sameResult_enhanced (s u : State) (ha : s.latch.a = u.latch.a) (hb : s.latch.b = u.latch.b)
    (hctrl : s.latch.ctrl = u.latch.ctrl) : ∀ i ∈ [Instr.encE, .decE], SameResult i s u := by
  have hu : u = { u with latch := { u.latch with a := s.latch.a, b := s.latch.b, ctrl := s.latch.ctrl } } := by rw [ha, hb, hctrl]
  rw [hu]
  simp only [List.forall_mem_cons]
  exact ⟨⟨_, rfl, rfl⟩, ⟨_, rfl, rfl⟩, by simp⟩

/-- KEYEXP reads LATCH.a alone (30_encoding.md R77). -/
theorem exec_keyexp_same_input (s u t w : State) (ha : s.latch.a = u.latch.a) (ht : exec .keyexp s = .next t)
    (hw : exec .keyexp u = .next w) : t.rk0 = w.rk0 ∧ t.rk1 = w.rk1 ∧ t.rk2 = w.rk2 := by
  obtain rfl := Host.Outcome.next.inj ((exec_keyexp s).symm.trans ht)
  obtain rfl := Host.Outcome.next.inj ((exec_keyexp u).symm.trans hw)
  simp [ha]

/-- A harness command of a legal trial count makes its run (44_harness.md R196 to R198). -/
theorem runHarness_legal (P : Params) (x : Experiment) (s : State) (pos : 1 ≤ s.latch.trials.toNat)
    (le : s.latch.trials.toNat ≤ P.tMax) :
    runHarness P x s = complete (writeHarness x (harness P x s.latch.trials.toNat s.latch.seed s.latch.ctrl) s) := by
  have hcheck : checkTrials P (operandTrials s) = none := checkTrials_none P _ pos le
  simp only [runHarness, hcheck]
  rfl

/-- The bytes of the records written do not depend on what TREC held. -/
theorem readByte_writeRecords_inside (m n : Memory) (rs : List TrialRecord) (a : Nat) (low : trecBase ≤ a)
    (high : a < trecBase + 8 * rs.length) : Memory.readByte (writeRecords m rs) a = Memory.readByte (writeRecords n rs) a := by
  simp only [writeRecords, readByte_writeBytes, recordsBytes_length, if_pos (And.intro low high)]

/-- What a harness command of a legal trial count writes depends on LATCH.trials, LATCH.seed and LATCH.ctrl alone (30_encoding.md R77). -/
theorem runHarness_same_inputs (P : Params) (x : Experiment) (s u : State) (htrials : s.latch.trials = u.latch.trials)
    (hseed : s.latch.seed = u.latch.seed) (hctrl : s.latch.ctrl = u.latch.ctrl) (pos : 1 ≤ s.latch.trials.toNat)
    (le : s.latch.trials.toNat ≤ P.tMax) :
    (runHarness P x s).statB = (runHarness P x u).statB ∧ (runHarness P x s).statE = (runHarness P x u).statE ∧
      (runHarness P x s).status.lastExp = (runHarness P x u).status.lastExp ∧
      ∀ a, 0x10000 ≤ a → a < 0x10000 + 8 * s.latch.trials.toNat →
        Memory.readByte (runHarness P x s).trec a = Memory.readByte (runHarness P x u).trec a := by
  rw [runHarness_legal P x s pos le, runHarness_legal P x u (htrials ▸ pos) (htrials ▸ le), ← htrials, ← hseed, ← hctrl]
  refine ⟨rfl, rfl, rfl, fun a low high => readByte_writeRecords_inside _ _ _ a low ?_⟩
  rw [harness_length]
  exact high

/-- Settles O51: the write set of each kind of command, then what each kind reads. -/
theorem commandsKeepTheirWriteSet : Obligations.CommandsKeepTheirWriteSet := by
  refine ⟨fun i hi s => ?_, fun s => ⟨_, exec_keyexp s, completeWithKeys_eq _ _ _ s, fun _ => rfl⟩,
    fun x s => ⟨_, exec_avalancheInstr x s, runHarness_writeSet Config.params x s⟩,
    fun i hi s u t w ha hb ht hw => (sameResult_binary s u ha hb i hi).result_eq ht hw,
    fun i hi s u t w ha ht hw => (sameResult_unary s u ha i hi).result_eq ht hw,
    exec_keyexp_same_input,
    fun i hi s u t w ha hb hctrl ht hw => (sameResult_enhanced s u ha hb hctrl i hi).result_eq ht hw,
    fun x s u t w htrials hseed hctrl pos le ht hw => ?_⟩
  · obtain ⟨v, hexec⟩ := exec_resultCommand i hi s
    exact ⟨_, hexec, completeWithResult_eq v s, fun _ => rfl⟩
  · obtain rfl := Host.Outcome.next.inj ((exec_avalancheInstr x s).symm.trans ht)
    obtain rfl := Host.Outcome.next.inj ((exec_avalancheInstr x u).symm.trans hw)
    exact runHarness_same_inputs Config.params x s u htrials hseed hctrl pos le

end Sys2Proof.Machine
end

section
/-! The field GF(2^4) and the substitution tables (40_field_and_tables.md): the shift-and-add loop is the product of polynomials modulo
x^4 + x + 1, an SBOX built from a table has its entries, and what GFMUL, SBOXF and SBOXI write. -/

namespace Sys2Proof.Machine

open Polynomial

/-! Nibbles as polynomials -/

/-- The polynomial over GF(2) that a nibble stands for (R100). -/
noncomputable def nibblePoly (a : Nibble) : (ZMod 2)[X] := ∑ i ∈ Finset.range 4, if a.getLsbD i then X ^ i else 0

/-- The reduction polynomial (R100). -/
noncomputable def reductionPoly : (ZMod 2)[X] := X ^ 4 + X + 1

/-- The four terms of a nibble's polynomial, lowest first. -/
theorem nibblePoly_eq (a : Nibble) :
    nibblePoly a = (if a.getLsbD 0 then 1 else 0) + (if a.getLsbD 1 then X else 0) + (if a.getLsbD 2 then X ^ 2 else 0) +
      if a.getLsbD 3 then X ^ 3 else 0 := by
  simp [nibblePoly, Finset.sum_range_succ]

@[simp] theorem nibblePoly_zero : nibblePoly 0#4 = 0 := by simp [nibblePoly]

@[simp] theorem nibblePoly_reductionConstant : nibblePoly reductionConstant = X + 1 := by
  simp [nibblePoly_eq, reductionConstant, add_comm]

/-- Field addition is XOR (R100): two equal terms cancel, as in GF(2). -/
theorem nibblePoly_xor (a b : Nibble) : nibblePoly (a ^^^ b) = nibblePoly a + nibblePoly b := by
  simp only [nibblePoly, ← Finset.sum_add_distrib, BitVec.getLsbD_xor]
  refine Finset.sum_congr rfl fun i _ => ?_
  cases a.getLsbD i <;> cases b.getLsbD i <;> simp [CharTwo.add_self_eq_zero]

/-- Shifting left multiplies by x, but for the term that bit 3 carries out. -/
theorem X_mul_nibblePoly (x : Nibble) : X * nibblePoly x = nibblePoly (x <<< 1) + if x.getLsbD 3 then X ^ 4 else 0 := by
  simp [nibblePoly_eq, mul_add, ← pow_succ', ← pow_two]

/-- Shifting right divides by x, but for the constant term. -/
theorem nibblePoly_eq_shiftRight (y : Nibble) :
    nibblePoly y = (if y.getLsbD 0 then (1 : (ZMod 2)[X]) else 0) + X * nibblePoly (y >>> 1) := by
  simp [nibblePoly_eq, mul_add, ← pow_succ', ← pow_two, ← add_assoc]

/-- One step of the multiplicand multiplies it by x modulo the reduction polynomial (R101): x^4 is carried out and x + 1 is put in. -/
theorem reductionPoly_dvd_shiftReduce (x : Nibble) : reductionPoly ∣ X * nibblePoly x - nibblePoly (shiftReduce x) := by
  rw [X_mul_nibblePoly, shiftReduce]
  split
  · have hcarry : nibblePoly (x <<< 1) + X ^ 4 - nibblePoly (x <<< 1 ^^^ reductionConstant) = reductionPoly := by
      rw [nibblePoly_xor, nibblePoly_reductionConstant, add_sub_add_left_eq_sub, CharTwo.sub_eq_add, ← add_assoc, reductionPoly]
    exact dvd_of_eq hcarry.symm
  · simp

/-- The loop adds the product of multiplicand and multiplier to `p`, when its rounds use up all bits of the multiplier. -/
theorem reductionPoly_dvd_multiplyLoop (n : Nat) (p x y : Nibble) (used : y >>> n = 0) :
    reductionPoly ∣ nibblePoly p + nibblePoly x * nibblePoly y - nibblePoly (multiplyLoop n p x y) := by
  induction n generalizing p x y with
  | zero =>
    obtain rfl : y = 0 := by simpa using used
    simp [multiplyLoop]
  | succ n ih =>
    have hadd : nibblePoly (if y.getLsbD 0 then p ^^^ x else p) = nibblePoly p + nibblePoly x * if y.getLsbD 0 then 1 else 0 := by
      split <;> simp [nibblePoly_xor]
    have used' : y >>> 1 >>> n = 0 := by rw [← BitVec.shiftRight_add, Nat.add_comm, used]
    have hrest := ih (if y.getLsbD 0 then p ^^^ x else p) (shiftReduce x) (y >>> 1) used'
    have hshift := (reductionPoly_dvd_shiftReduce x).mul_right (nibblePoly (y >>> 1))
    rw [hadd] at hrest
    rw [multiplyLoop, nibblePoly_eq_shiftRight y]
    convert hrest.add hshift using 1
    ring

/-- Settles O26: XOR is the sum, and the four rounds of the loop use up a nibble. -/
theorem multiplyIsFieldProduct : Obligations.MultiplyIsFieldProduct := by
  refine fun a b => ⟨nibblePoly_xor a b, ?_⟩
  have hloop := reductionPoly_dvd_multiplyLoop 4 0#4 a b (BitVec.ushiftRight_eq_zero le_rfl)
  rwa [nibblePoly_zero, zero_add] at hloop

/-! GFMUL -/

/-- A factor 0 gives 0 (R102). -/
theorem multiply_zero (a : Nibble) : multiply a 0 = 0 := by revert a; decide

theorem zero_multiply (a : Nibble) : multiply 0 a = 0 := by revert a; decide

/-- The factor 1 changes nothing (R102). -/
theorem multiply_one (a : Nibble) : multiply a 1 = a := by revert a; decide

/-- A zero-extended nibble leaves RESULT[15:4] 0. -/
theorem setWidth_nibble_upper (v : Nibble) : (v.setWidth 16).extractLsb' 4 12 = 0#12 := by
  refine extractLsb'_eq_of_getLsbD _ _ _ fun i _ => ?_
  simp

/-- GFMUL writes the product of the operands' low nibbles (R105). -/
theorem exec_gfmul (s : State) : exec .gfmul s = .next (completeWithNibble (multiply (nibbleA s) (nibbleB s)) s) := rfl

/-- Settles O11: the command word, what GFMUL writes, and the corners of the product. -/
theorem gfmulResult : Obligations.GfmulResult :=
  ⟨(decode_eq_some_iff _ _).mpr rfl, exec_gfmul,
    fun a => ⟨multiply_zero a, zero_multiply a, multiply_one a, setWidth_nibble_upper a⟩, by decide⟩

/-! SBOXF and SBOXI -/

/-- An SBOX built from a table has the table's entries, and their places as the entries of its inverse (R103). -/
theorem sbox_ofTable_entries {t : List Nibble} {sb : Sbox} (h : Sbox.ofTable t = .ok sb) (x : Nibble) :
    sboxAt sb x = tableAt t x ∧ sboxInvAt sb x = tableInverseAt t x := by
  unfold Sbox.ofTable at h
  split at h
  · cases h
    exact ⟨rfl, rfl⟩
  · cases h

/-- SBOX_INV undoes SBOX (R103). -/
@[simp] theorem sboxInvAt_sboxAt (sb : Sbox) (x : Nibble) : sboxInvAt sb (sboxAt sb x) = x := sb.symm_apply_apply x

/-- SBOXF writes the entry of SBOX at the operand's low nibble (R106). -/
theorem exec_sboxf (s : State) :
    exec .sboxf s = .next (completeWithNibble (sboxAt Config.params.sbox (nibbleA s)) s) := rfl

/-- SBOXI writes the entry of SBOX_INV at the operand's low nibble (R107). -/
theorem exec_sboxi (s : State) :
    exec .sboxi s = .next (completeWithNibble (sboxInvAt Config.params.sbox (nibbleA s)) s) := rfl

/-- Settles O12: the command words, what each command writes, and the tables, the default one by its entries. -/
theorem sboxCommandResults : Obligations.SboxCommandResults := by
  have hword := fun w i => (decode_eq_some_iff w i).mpr
  refine ⟨hword _ _ rfl, hword _ _ rfl, fun s => ⟨exec_sboxf s, exec_sboxi s⟩,
    fun sb x => ⟨sboxInvAt_sboxAt sb x, setWidth_nibble_upper _⟩, fun sb hsb => ?_⟩
  obtain ⟨hentry, -⟩ := sbox_ofTable_entries hsb 0
  obtain ⟨-, hinverse⟩ := sbox_ofTable_entries hsb 9
  exact ⟨hentry.trans (by decide), hinverse.trans (by decide)⟩

end Sys2Proof.Machine
end

section
/-! The packed form of a block, the round-key mask and the key schedule (41_state_and_keyschedule.md): packing and unpacking undo each
other and carry XOR to XOR, each round key is one expansion step on the one before it, and what XORST, RKMASK and KEYEXP write. -/

namespace Sys2Proof.Machine

/-! Packed blocks and matrices -/

/-- A packed block, bit by bit (R121). -/
theorem fromMatrix_getLsbD (m : NibbleMatrix) (i : Nat) :
    (fromMatrix m).getLsbD i =
      if i < 4 then m.n11.getLsbD i else if i < 8 then m.n10.getLsbD (i - 4) else if i < 12 then m.n01.getLsbD (i - 8)
      else m.n00.getLsbD (i - 12) := by
  simp only [fromMatrix, BitVec.getLsbD_append]
  grind

/-- Packing undoes unpacking (R121): every bit of the block is in the nibble of its place. -/
@[simp] theorem fromMatrix_toMatrix (v : Block) : fromMatrix (toMatrix v) = v := by
  refine BitVec.eq_of_getLsbD_eq fun i hi => ?_
  simp only [fromMatrix_getLsbD, toMatrix, BitVec.getLsbD_extractLsb']
  grind

/-- Unpacking undoes packing (R121): each nibble is read back from its place. -/
@[simp] theorem toMatrix_fromMatrix (m : NibbleMatrix) : toMatrix (fromMatrix m) = m := by
  rw [toMatrix, NibbleMatrix.mk.injEq]
  refine ⟨?_, ?_, ?_, ?_⟩ <;> refine extractLsb'_eq_of_getLsbD _ _ _ fun i hi => ?_ <;> rw [fromMatrix_getLsbD]
  · grind
  · grind
  · grind
  · grind

/-- Unpacking carries XOR of blocks to XOR of matrices (R122). -/
theorem toMatrix_xor (u v : Block) : toMatrix (u ^^^ v) = xorMatrix (toMatrix u) (toMatrix v) := by
  simp only [toMatrix, xorMatrix, BitVec.extractLsb'_xor]

/-- The XOR of two unpacked blocks packs to their XOR (R122). -/
theorem fromMatrix_xorMatrix_toMatrix (u v : Block) : fromMatrix (xorMatrix (toMatrix u) (toMatrix v)) = u ^^^ v := by
  rw [← toMatrix_xor, fromMatrix_toMatrix]

/-- Settles O27: the two round trips, the packed order, and XOR on packed blocks. -/
theorem stateLayoutBijection : Obligations.StateLayoutBijection :=
  ⟨fromMatrix_toMatrix, toMatrix_fromMatrix, fun _ => rfl, fromMatrix_xorMatrix_toMatrix⟩

/-! The words of a round key and its mask -/

/-- The high word of a round key. -/
def highWord (k : Block) : KeyWord := k.extractLsb' 8 8

/-- The low word of a round key. -/
def lowWord (k : Block) : KeyWord := k.extractLsb' 0 8

@[simp] theorem highWord_append (w v : KeyWord) : highWord (w ++ v) = w := BitVec.extractLsb'_append_eq_left

@[simp] theorem lowWord_append (w v : KeyWord) : lowWord (w ++ v) = v := BitVec.extractLsb'_append_eq_right

@[simp] theorem highWord_append_lowWord (k : Block) : highWord k ++ lowWord k = k := BitVec.extractLsb'_append_extractLsb'

/-- A field of the high word stands eight places higher in the round key. -/
theorem highWord_extractLsb' (k : Block) (start len : Nat) (h : start + len ≤ 8) :
    (highWord k).extractLsb' start len = k.extractLsb' (8 + start) len := by
  refine extractLsb'_eq_of_getLsbD _ _ _ fun i hi => ?_
  have hin : start + i < 8 := by omega
  simp [highWord, hi, hin, Nat.add_assoc]

/-- The XOR of the two nibbles of a word of the key schedule. -/
def nibbleFold (w : KeyWord) : Nibble := w.extractLsb' 4 4 ^^^ w.extractLsb' 0 4

theorem nibbleFold_xor (w v : KeyWord) : nibbleFold (w ^^^ v) = nibbleFold w ^^^ nibbleFold v := by
  simp only [nibbleFold, BitVec.extractLsb'_xor]
  ac_rfl

/-- The nibbles of the high word are the upper two of the round key. -/
theorem nibbleFold_highWord (k : Block) : nibbleFold (highWord k) = k.extractLsb' 12 4 ^^^ k.extractLsb' 8 4 := by
  rw [nibbleFold, highWord_extractLsb' k 4 4 (by decide), highWord_extractLsb' k 0 4 (by decide)]

/-- The nibbles of the low word are the lower two of the round key. -/
theorem nibbleFold_lowWord (k : Block) : nibbleFold (lowWord k) = k.extractLsb' 4 4 ^^^ k.extractLsb' 0 4 := by
  simp [nibbleFold, lowWord, BitVec.extractLsb'_extractLsb'_of_le]

/-- The mask of a round key folds its two words (R123). -/
theorem roundKeyMask_eq_words (k : Block) : roundKeyMask k = nibbleFold (highWord k) ^^^ nibbleFold (lowWord k) := by
  rw [nibbleFold_highWord, nibbleFold_lowWord, ← BitVec.xor_assoc]
  rfl

/-! One step of the key expansion -/

/-- Substituting a half-swapped word puts the entry of its low nibble on top (R124, R125). -/
theorem subNibByte_rotNib (sb : Sbox) (w : KeyWord) :
    subNibByte sb (rotNib w) = sboxAt sb (w.extractLsb' 0 4) ++ sboxAt sb (w.extractLsb' 4 4) := by
  rw [subNibByte, rotNib, BitVec.extractLsb'_append_eq_left, BitVec.extractLsb'_append_eq_right]

/-- The high word that one expansion step makes of a round key (R127). -/
def nextHighWord (sb : Sbox) (rcon : KeyWord) (k : Block) : KeyWord :=
  highWord k ^^^ (subNibByte sb (rotNib (lowWord k)) ^^^ rcon)

/-- The round key that one expansion step makes of the one before it (R127). -/
def nextRoundKey (sb : Sbox) (rcon : KeyWord) (k : Block) : Block :=
  nextHighWord sb rcon k ++ (nextHighWord sb rcon k ^^^ lowWord k)

@[simp] theorem highWord_nextRoundKey (sb : Sbox) (rcon : KeyWord) (k : Block) :
    highWord (nextRoundKey sb rcon k) = nextHighWord sb rcon k := highWord_append _ _

@[simp] theorem lowWord_nextRoundKey (sb : Sbox) (rcon : KeyWord) (k : Block) :
    lowWord (nextRoundKey sb rcon k) = nextHighWord sb rcon k ^^^ lowWord k := lowWord_append _ _

/-- Both words that a step makes (R127). -/
theorem nextRoundKey_words {sb : Sbox} {rcon : KeyWord} {k k' : Block} (h : k' = nextRoundKey sb rcon k) :
    highWord k' =
        highWord k ^^^ ((sboxAt sb ((lowWord k).extractLsb' 0 4) ++ sboxAt sb ((lowWord k).extractLsb' 4 4)) ^^^ rcon) ∧
      lowWord k' = highWord k' ^^^ lowWord k := by
  rw [← subNibByte_rotNib, h, highWord_nextRoundKey, lowWord_nextRoundKey]
  exact ⟨rfl, rfl⟩

/-- The new low word holds the new high word in its XOR, so that the mask of a round key is the fold of the low word before it (R131). -/
theorem roundKeyMask_nextRoundKey (sb : Sbox) (rcon : KeyWord) (k : Block) :
    roundKeyMask (nextRoundKey sb rcon k) = nibbleFold (lowWord k) := by
  rw [roundKeyMask_eq_words, highWord_nextRoundKey, lowWord_nextRoundKey, nibbleFold_xor, ← BitVec.xor_assoc, BitVec.xor_self,
    BitVec.zero_xor]

/-! The key expansion -/

/-- K0 is the key (R131): its bytes, joined again. -/
@[simp] theorem expandKey_k0 (sb : Sbox) (key : Block) : (expandKey sb key).k0 = key := highWord_append_lowWord key

/-- K1 is one step from the key, with RCON1 (R127). -/
theorem expandKey_k1 (sb : Sbox) (key : Block) : (expandKey sb key).k1 = nextRoundKey sb rcon1 key := rfl

/-- K2 is one step from K1, with RCON2 (R127). -/
theorem expandKey_k2 (sb : Sbox) (key : Block) : (expandKey sb key).k2 = nextRoundKey sb rcon2 (expandKey sb key).k1 := by
  rw [nextRoundKey, nextHighWord, expandKey_k1, highWord_nextRoundKey, lowWord_nextRoundKey]
  rfl

/-- Settles O30: the mask of a round key is the fold of the low word before it, and the fold of K1's low word is its mask without the
high word. -/
theorem keyMaskConsequences : Obligations.KeyMaskConsequences := by
  refine fun sb key => ⟨expandKey_k0 sb key, ?_, ?_⟩
  · rw [expandKey_k1, roundKeyMask_nextRoundKey, nibbleFold_lowWord]
  · rw [expandKey_k2, roundKeyMask_nextRoundKey, ← nibbleFold_highWord, roundKeyMask_eq_words, ← BitVec.xor_assoc, BitVec.xor_self,
      BitVec.zero_xor]

/-- Settles O31: K0 is the key, and K1 and K2 have the words that an expansion step makes. -/
theorem keyExpansionWords : Obligations.KeyExpansionWords := by
  intro sb key high low turned ks
  have h0 : ks.k0 = key := expandKey_k0 sb key
  have h1 : ks.k1 = nextRoundKey sb rcon1 ks.k0 := by rw [h0, expandKey_k1]
  obtain ⟨hhigh1, hlow1⟩ := nextRoundKey_words h1
  obtain ⟨hhigh2, hlow2⟩ := nextRoundKey_words (expandKey_k2 sb key)
  exact ⟨congrArg high h0, congrArg low h0, hhigh1, hlow1, hhigh2, hlow2⟩

/-! The commands -/

/-- XORST writes the XOR of its operands (R128). -/
theorem exec_xorst (s : State) : exec .xorst s = .next (completeWithResult (s.latch.a ^^^ s.latch.b) s) := by
  rw [← fromMatrix_xorMatrix_toMatrix]
  rfl

/-- Settles O13: the command word, what XORST writes, and the corners and the example of XOR. -/
theorem xorstResult : Obligations.XorstResult :=
  have hxor := fromMatrix_xorMatrix_toMatrix
  ⟨(decode_eq_some_iff _ _).mpr rfl, exec_xorst,
    fun u v => ⟨(hxor u u).trans BitVec.xor_self, (hxor u 0).trans BitVec.xor_zero, hxor u v, (hxor _ _).trans (by decide)⟩⟩

/-- RKMASK writes the mask of its operand (R129). -/
theorem exec_rkmask (s : State) : exec .rkmask s = .next (completeWithNibble (roundKeyMask s.latch.a) s) := rfl

/-- Settles O14: the command word, what RKMASK writes, the example, and keys whose nibbles cancel. -/
theorem rkmaskResult : Obligations.RkmaskResult :=
  ⟨(decode_eq_some_iff _ _).mpr rfl, exec_rkmask, by decide, by decide, by decide, by decide,
    fun k => setWidth_nibble_upper (roundKeyMask k)⟩

/-- An SBOX built from a table substitutes a half-swapped word by the table's entries (R103). -/
theorem subNibByte_rotNib_ofTable {t : List Nibble} {sb : Sbox} (h : Sbox.ofTable t = .ok sb) (w : KeyWord) :
    subNibByte sb (rotNib w) = tableAt t (w.extractLsb' 0 4) ++ tableAt t (w.extractLsb' 4 4) := by
  have hentry (x : Nibble) : sboxAt sb x = tableAt t x := (sbox_ofTable_entries h x).1
  rw [subNibByte_rotNib, hentry, hentry]

/-- Settles O15: the command word, what KEYEXP writes, and the example, step by step under the default table. -/
theorem keyexpResult : Obligations.KeyexpResult := by
  refine ⟨(decode_eq_some_iff _ _).mpr rfl, fun s => ?_, fun sb hsb => ?_⟩
  · rw [exec_keyexp, expandKey_k0, completeWithKeys_eq]
  · have h1 : (expandKey sb 0x3A94).k1 = 0x68FC := by
      rw [expandKey_k1, nextRoundKey, nextHighWord, subNibByte_rotNib_ofTable hsb]
      decide
    have h2 : (expandKey sb 0x3A94).k2 = 0x9F63 := by
      rw [expandKey_k2, h1, nextRoundKey, nextHighWord, subNibByte_rotNib_ofTable hsb]
      decide
    calc expandKey sb 0x3A94
        = ⟨(expandKey sb 0x3A94).k0, (expandKey sb 0x3A94).k1, (expandKey sb 0x3A94).k2⟩ := rfl
      _ = _ := by rw [expandKey_k0, h1, h2]

end Sys2Proof.Machine
end

section
/-! GF(2^4) multiplication as a bilinear, associative product without zero divisors (40_field_and_tables.md R100 to R102). -/

namespace Sys2Proof.Machine

/-- Two sums are added term by term. -/
theorem xor_xor_xor_comm (a b c d : Nibble) : a ^^^ b ^^^ (c ^^^ d) = a ^^^ c ^^^ (b ^^^ d) := by ac_rfl

/-- Adding `x` to a sum under the XOR of two conditions adds it to either term under its own: added to both, it cancels. -/
theorem ite_xor_eq (c d : Bool) (p q x : Nibble) :
    (if c ^^ d then p ^^^ q ^^^ x else p ^^^ q) = (if c then p ^^^ x else p) ^^^ (if d then q ^^^ x else q) := by
  cases c with
  | false =>
    cases d with
    | false => rfl
    | true => exact BitVec.xor_assoc p q x
  | true =>
    cases d with
    | false =>
      have hmove : p ^^^ q ^^^ x = p ^^^ x ^^^ q := by ac_rfl
      exact hmove
    | true =>
      have hcancel : p ^^^ x ^^^ (q ^^^ x) = p ^^^ q := by rw [xor_xor_xor_comm, BitVec.xor_self, BitVec.xor_zero]
      exact hcancel.symm

/-- The loop is linear in product and multiplier together. -/
theorem multiplyLoop_xor (n : Nat) (p q x y z : Nibble) :
    multiplyLoop n (p ^^^ q) x (y ^^^ z) = multiplyLoop n p x y ^^^ multiplyLoop n q x z := by
  induction n generalizing p q x y z with
  | zero => rfl
  | succ n ih =>
    rw [multiplyLoop, multiplyLoop, multiplyLoop, BitVec.getLsbD_xor, ite_xor_eq, BitVec.ushiftRight_xor_distrib, ih]

/-- Multiplication distributes over field addition in its second factor. -/
theorem multiply_xor (a b c : Nibble) : multiply a (b ^^^ c) = multiply a b ^^^ multiply a c := multiplyLoop_xor 4 0 0 a b c

/-- A map that is additive and commutes with the step of the multiplicand commutes with the loop. -/
theorem multiplyLoop_map (f : Nibble → Nibble) (hxor : ∀ x y, f (x ^^^ y) = f x ^^^ f y)
    (hshift : ∀ x, f (shiftReduce x) = shiftReduce (f x)) (n : Nat) (p x y : Nibble) :
    multiplyLoop n (f p) (f x) y = f (multiplyLoop n p x y) := by
  induction n generalizing p x y with
  | zero => rfl
  | succ n ih => rw [multiplyLoop, multiplyLoop, ← ih, hshift, apply_ite f, hxor]

/-- Multiplication by x, the step of the multiplicand, commutes with every multiplication. -/
theorem multiply_shiftReduce (a x : Nibble) : multiply a (shiftReduce x) = shiftReduce (multiply a x) := by revert a x; decide

/-- Multiplication by `a` is a map that the loop commutes with. -/
theorem multiply_assoc (a b c : Nibble) : multiply (multiply a b) c = multiply a (multiply b c) := by
  have h := multiplyLoop_map (multiply a) (multiply_xor a) (multiply_shiftReduce a) 4 0 b c
  rwa [multiply_zero] at h

theorem multiply_comm (a b : Nibble) : multiply a b = multiply b a := by revert a b; decide

theorem one_multiply (a : Nibble) : multiply 1 a = a := by rw [multiply_comm, multiply_one]

/-- Multiplication distributes over field addition in its first factor. -/
theorem xor_multiply (a b c : Nibble) : multiply (a ^^^ b) c = multiply a c ^^^ multiply b c := by
  rw [multiply_comm, multiply_xor, multiply_comm c a, multiply_comm c b]

/-- The field has no zero divisors. -/
theorem multiply_eq_zero_iff (a b : Nibble) : multiply a b = 0 ↔ a = 0 ∨ b = 0 := by revert a b; decide

end Sys2Proof.Machine
end

section
/-! The round transformations (42_round_transforms.md). The masked substitution is the substitution of another SBOX, and the mix matrices
are circulant, so that the inverses, the corners and the eight commands follow from what one nibble or one column does. -/

namespace Sys2Proof.Machine

/-! Substitution -/

/-- A nibble map undone by another is undone nibble by nibble. -/
theorem mapMatrix_leftInverse {f g : Nibble → Nibble} (h : Function.LeftInverse g f) (m : NibbleMatrix) :
    mapMatrix g (mapMatrix f m) = m := by
  simp only [mapMatrix, h m.n00, h m.n01, h m.n10, h m.n11]

/-- SBOX_INV undoes SBOX on a matrix (R142). -/
@[simp] theorem invSubNib_subNib (sb : Sbox) (m : NibbleMatrix) : invSubNib sb (subNib sb m) = m :=
  mapMatrix_leftInverse sb.left_inv m

/-- SBOX undoes SBOX_INV on a matrix (R142). -/
@[simp] theorem subNib_invSubNib (sb : Sbox) (m : NibbleMatrix) : subNib sb (invSubNib sb m) = m :=
  mapMatrix_leftInverse sb.right_inv m

/-- XOR with a mask, as a permutation of the nibbles. -/
def xorPerm (k : Nibble) : Equiv.Perm Nibble := Function.Involutive.toPerm (· ^^^ k) fun x => xor_cancel_right x k

/-- The masked substitution as an SBOX of its own: two XOR translations around a permutation (R155). -/
def maskedSbox (sb : Sbox) (k : Nibble) : Sbox := (xorPerm k).trans (sb.trans (xorPerm k))

/-- Mask 0 leaves the SBOX as it is (R155). -/
@[simp] theorem maskedSbox_zero (sb : Sbox) : maskedSbox sb 0 = sb :=
  Equiv.ext fun x => (xor_zero (sb (x ^^^ 0))).trans (congrArg sb (xor_zero x))

/-- The dynamic substitution is the plain one of the masked SBOX (R141). -/
theorem subNibDynamic_eq (sb : Sbox) (m : NibbleMatrix) (k : Nibble) : subNibDynamic sb m k = subNib (maskedSbox sb k) m := rfl

/-- The dynamic inverse is the plain one of the masked SBOX: inverting the composition gives the same two translations (R143). -/
theorem invSubNibDynamic_eq (sb : Sbox) (m : NibbleMatrix) (k : Nibble) :
    invSubNibDynamic sb m k = invSubNib (maskedSbox sb k) m := rfl

/-- Under one mask the dynamic inverse undoes the dynamic substitution (R143). -/
@[simp] theorem invSubNibDynamic_subNibDynamic (sb : Sbox) (m : NibbleMatrix) (k : Nibble) :
    invSubNibDynamic sb (subNibDynamic sb m k) k = m := invSubNib_subNib (maskedSbox sb k) m

/-- Under one mask the dynamic substitution undoes the dynamic inverse (R143). -/
@[simp] theorem subNibDynamic_invSubNibDynamic (sb : Sbox) (m : NibbleMatrix) (k : Nibble) :
    subNibDynamic sb (invSubNibDynamic sb m k) k = m := subNib_invSubNib (maskedSbox sb k) m

/-- Mask 0 gives the plain substitution (R155). -/
theorem subNibDynamic_zero (sb : Sbox) (m : NibbleMatrix) : subNibDynamic sb m 0 = subNib sb m := by
  rw [subNibDynamic_eq, maskedSbox_zero]

/-- Mask 0 gives the plain inverse (R155). -/
theorem invSubNibDynamic_zero (sb : Sbox) (m : NibbleMatrix) : invSubNibDynamic sb m 0 = invSubNib sb m := by
  rw [invSubNibDynamic_eq, maskedSbox_zero]

/-- Settles O29: the masked substitution is the permutation `maskedSbox`, which is SBOX for mask 0. -/
theorem dynamicSubstitutionPermutes : Obligations.DynamicSubstitutionPermutes :=
  fun sb => ⟨fun k => (maskedSbox sb k).bijective, fun m => ⟨subNibDynamic_zero sb m, invSubNibDynamic_zero sb m⟩⟩

/-! Row shift -/

/-- Swapping the bottom row twice leaves it (R144). -/
@[simp] theorem shiftRows_shiftRows (m : NibbleMatrix) : shiftRows (shiftRows m) = m := rfl

/-- A matrix with equal nibbles in its bottom row is a fixed point (R151). -/
theorem shiftRows_eq_self {m : NibbleMatrix} (h : m.n11 = m.n10) : shiftRows m = m := by
  rw [shiftRows, h]
  exact congrArg (NibbleMatrix.mk m.n00 m.n01 m.n10) h.symm

/-- The high byte of a packed matrix is its top row (R121). -/
theorem highWord_fromMatrix (m : NibbleMatrix) : highWord (fromMatrix m) = m.n00 ++ m.n01 := by
  refine extractLsb'_eq_of_getLsbD _ _ _ fun i hi => ?_
  rw [fromMatrix_getLsbD, BitVec.getLsbD_append]
  grind

/-- The row shift keeps the top row (R151). -/
theorem highWord_fromMatrix_shiftRows (m : NibbleMatrix) : highWord (fromMatrix (shiftRows m)) = highWord (fromMatrix m) := by
  rw [highWord_fromMatrix, highWord_fromMatrix]
  rfl

/-! Column mix -/

/-- The top nibble that the matrix `[[p, q], [q, p]]` makes of the column `(a, b)`; the bottom one is the top one of `(b, a)` (R145). -/
def mixTop (p q a b : Nibble) : Nibble := multiply p a ^^^ multiply q b

/-- The mix takes each column for itself (R145, R146). -/
theorem mixWith_eq (p q : Nibble) (m : NibbleMatrix) :
    mixWith p q m = ⟨mixTop p q m.n00 m.n10, mixTop p q m.n01 m.n11, mixTop p q m.n10 m.n00, mixTop p q m.n11 m.n01⟩ := by
  simp only [mixWith, mixTop, BitVec.xor_comm (multiply q _)]

/-- A zero column stays zero. -/
theorem mixTop_zero (p q : Nibble) : mixTop p q 0 0 = 0 := by
  rw [mixTop, multiply_zero, multiply_zero, xor_zero]

/-- The unit matrix leaves the top nibble as it is. -/
theorem mixTop_one_zero (a b : Nibble) : mixTop 1 0 a b = a := by
  rw [mixTop, one_multiply, zero_multiply, xor_zero]

/-- The mix is linear in the column (R153). -/
theorem mixTop_xor (p q a b c d : Nibble) : mixTop p q (a ^^^ c) (b ^^^ d) = mixTop p q a b ^^^ mixTop p q c d := by
  rw [mixTop, multiply_xor, multiply_xor, xor_xor_xor_comm]
  rfl

/-- Two circulant matrices multiply to a circulant one. -/
theorem mixTop_mixTop (p q r s a b : Nibble) :
    mixTop p q (mixTop r s a b) (mixTop r s b a) =
      mixTop (multiply p r ^^^ multiply q s) (multiply p s ^^^ multiply q r) a b := by
  simp only [mixTop, multiply_xor, xor_multiply, multiply_assoc]
  ac_rfl

/-- Two mixes are one, by the product of their matrices. -/
theorem mixWith_mixWith (p q r s : Nibble) (m : NibbleMatrix) :
    mixWith p q (mixWith r s m) = mixWith (multiply p r ^^^ multiply q s) (multiply p s ^^^ multiply q r) m := by
  simp only [mixWith_eq, mixTop_mixTop]

/-- The unit matrix changes nothing. -/
theorem mixWith_one_zero (m : NibbleMatrix) : mixWith 1 0 m = m := by
  rw [mixWith_eq, mixTop_one_zero, mixTop_one_zero, mixTop_one_zero, mixTop_one_zero]

/-- The product of the two matrices is the unit matrix: 9*1 + 2*4 = 1 and 9*4 + 2*1 = 0 (R146). -/
@[simp] theorem invMixColumns_mixColumns (m : NibbleMatrix) : invMixColumns (mixColumns m) = m := by
  have hunit : mixWith 9 2 (mixWith 1 4 m) = mixWith 1 0 m := mixWith_mixWith 9 2 1 4 m
  exact hunit.trans (mixWith_one_zero m)

/-- The product in the other order is the unit matrix too: 1*9 + 4*2 = 1 and 1*2 + 4*9 = 0 (R146). -/
@[simp] theorem mixColumns_invMixColumns (m : NibbleMatrix) : mixColumns (invMixColumns m) = m := by
  have hunit : mixWith 1 4 (mixWith 9 2 m) = mixWith 1 0 m := mixWith_mixWith 1 4 9 2 m
  exact hunit.trans (mixWith_one_zero m)

/-- Settles O28: the substitutions by the SBOX and the masked SBOX, the row swap, and the two mix matrices. -/
theorem roundTransformInverses : Obligations.RoundTransformInverses :=
  fun sb k m => ⟨invSubNib_subNib sb m, subNib_invSubNib sb m, invSubNibDynamic_subNibDynamic sb m k,
    subNibDynamic_invSubNibDynamic sb m k, shiftRows_shiftRows m, invMixColumns_mixColumns m, mixColumns_invMixColumns m⟩

/-- MIXCOL's matrix with the factor 1 left out, as R145 writes it. -/
theorem mixColumns_eq (m : NibbleMatrix) :
    mixColumns m =
      ⟨m.n00 ^^^ multiply 4 m.n10, m.n01 ^^^ multiply 4 m.n11, multiply 4 m.n00 ^^^ m.n10, multiply 4 m.n01 ^^^ m.n11⟩ := by
  simp only [mixColumns, mixWith, one_multiply]

/-- The mix is linear (R153). -/
theorem mixWith_xorMatrix (p q : Nibble) (m n : NibbleMatrix) :
    mixWith p q (xorMatrix m n) = xorMatrix (mixWith p q m) (mixWith p q n) := by
  simp only [mixWith_eq, xorMatrix, mixTop_xor]

/-- Packing carries XOR of matrices to XOR of blocks (R122). -/
theorem fromMatrix_xorMatrix (m n : NibbleMatrix) : fromMatrix (xorMatrix m n) = fromMatrix m ^^^ fromMatrix n := by
  rw [← fromMatrix_xorMatrix_toMatrix, toMatrix_fromMatrix, toMatrix_fromMatrix]

/-- The mix of a packed block is linear (R153). -/
theorem fromMatrix_mixWith_xor (p q : Nibble) (u v : Block) :
    fromMatrix (mixWith p q (toMatrix (u ^^^ v))) =
      fromMatrix (mixWith p q (toMatrix u)) ^^^ fromMatrix (mixWith p q (toMatrix v)) := by
  rw [toMatrix_xor, mixWith_xorMatrix, fromMatrix_xorMatrix]

/-- A column whose mix is zero is what the inverse matrix makes of a zero column, hence zero (R153). -/
theorem column_eq_zero_of_mixTop {a b : Nibble} (htop : mixTop 1 4 a b = 0) (hbottom : mixTop 1 4 b a = 0) : a = 0 ∧ b = 0 := by
  have ha := mixTop_mixTop 9 2 1 4 a b
  have hb := mixTop_mixTop 9 2 1 4 b a
  rw [htop, hbottom, mixTop_zero] at ha hb
  exact ⟨(mixTop_one_zero a b).symm.trans ha.symm, (mixTop_one_zero b a).symm.trans hb.symm⟩

/-- A column with exactly one nonzero nibble gets two, since both coefficients 1 and 4 are nonzero (R153). -/
theorem mixTop_ne_zero_of_one {a b : Nibble} (one : ¬(a = 0 ↔ b = 0)) : mixTop 1 4 a b ≠ 0 := by
  have hsum : mixTop 1 4 a b = a ^^^ multiply 4 b := by rw [mixTop, one_multiply]
  have hfour : multiply 4 b = 0 ↔ b = 0 := (multiply_eq_zero_iff 4 b).trans (or_iff_right (by decide))
  rw [hsum]
  by_cases ha : a = 0
  · have hb : b ≠ 0 := fun hb => one (iff_of_true ha hb)
    rwa [ha, zero_xor, ne_eq, hfour]
  · have hb : b = 0 := not_not.mp fun hb => one (iff_of_false ha hb)
    rwa [hb, multiply_zero, xor_zero]

/-! The commands -/

/-- SUBNIB substitutes its operand (R147). -/
theorem exec_subnib (s : State) :
    exec .subnib s = .next (completeWithResult (fromMatrix (subNib Config.params.sbox (toMatrix s.latch.a))) s) := rfl

/-- INVSUBNIB substitutes its operand by the inverse table (R148). -/
theorem exec_invsubnib (s : State) :
    exec .invsubnib s = .next (completeWithResult (fromMatrix (invSubNib Config.params.sbox (toMatrix s.latch.a))) s) := rfl

/-- SUBNIBD takes its mask from LATCH.b (R149). -/
theorem exec_subnibd (s : State) :
    exec .subnibd s =
      .next (completeWithResult (fromMatrix (subNibDynamic Config.params.sbox (toMatrix s.latch.a) (nibbleB s))) s) := rfl

/-- INVSUBNIBD takes its mask from LATCH.b (R150). -/
theorem exec_invsubnibd (s : State) :
    exec .invsubnibd s =
      .next (completeWithResult (fromMatrix (invSubNibDynamic Config.params.sbox (toMatrix s.latch.a) (nibbleB s))) s) := rfl

/-- SHROWS shifts its operand's rows (R151). -/
theorem exec_shrows (s : State) :
    exec .shrows s = .next (completeWithResult (fromMatrix (shiftRows (toMatrix s.latch.a))) s) := rfl

/-- INVSHROWS is the same function (R152). -/
theorem exec_invshrows (s : State) : exec .invshrows s = exec .shrows s := rfl

/-- MIXCOL mixes its operand's columns (R153). -/
theorem exec_mixcol (s : State) :
    exec .mixcol s = .next (completeWithResult (fromMatrix (mixColumns (toMatrix s.latch.a))) s) := rfl

/-- INVMIXCOL mixes its operand's columns by the inverse matrix (R154). -/
theorem exec_invmixcol (s : State) :
    exec .invmixcol s = .next (completeWithResult (fromMatrix (invMixColumns (toMatrix s.latch.a))) s) := rfl

/-- Under mask 0 SUBNIBD is SUBNIB, whatever CTRL holds (R149). -/
theorem exec_subnibd_zero (s : State) (zero : nibbleB s = 0) : exec .subnibd s = exec .subnib s := by
  rw [exec_subnibd, exec_subnib, zero, subNibDynamic_zero]

/-- Under mask 0 INVSUBNIBD is INVSUBNIB, whatever CTRL holds (R150). -/
theorem exec_invsubnibd_zero (s : State) (zero : nibbleB s = 0) : exec .invsubnibd s = exec .invsubnib s := by
  rw [exec_invsubnibd, exec_invsubnib, zero, invSubNibDynamic_zero]

/-- An SBOX built from a table substitutes under a mask by the table's entries (R103, R141). -/
theorem subNibDynamic_ofTable {t : List Nibble} {sb : Sbox} (h : Sbox.ofTable t = .ok sb) (m : NibbleMatrix) (k : Nibble) :
    subNibDynamic sb m k = mapMatrix (fun x => tableAt t (x ^^^ k) ^^^ k) m := by
  have hentry (x : Nibble) : sboxAt sb x = tableAt t x := (sbox_ofTable_entries h x).1
  simp only [subNibDynamic, hentry]

/-- A transformation of packed blocks is undone when the one of matrices is. -/
theorem fromMatrix_roundTrip {f g : NibbleMatrix → NibbleMatrix} (h : Function.LeftInverse g f) (v : Block) :
    fromMatrix (g (toMatrix (fromMatrix (f (toMatrix v))))) = v := by
  rw [toMatrix_fromMatrix, h, fromMatrix_toMatrix]

/-- Settles O16: the command words, what each command writes, the round trip, and the example, whose way back is the round trip. -/
theorem subnibResults : Obligations.SubnibResults := by
  have hword := fun w i => (decode_eq_some_iff w i).mpr
  have htrip (sb : Sbox) := fromMatrix_roundTrip (invSubNib_subNib sb)
  refine ⟨hword _ _ rfl, hword _ _ rfl, fun s => ⟨exec_subnib s, exec_invsubnib s⟩, htrip, fun sb hsb => ?_⟩
  have hexample : fromMatrix (subNib sb (toMatrix 0x1234)) = 0x4ABD := by
    rw [← subNibDynamic_zero, subNibDynamic_ofTable hsb]
    decide
  exact ⟨hexample, hexample ▸ htrip sb 0x1234⟩

/-- Settles O17: the command words, what each command writes, mask 0, the round trip, and the example with its way back. -/
theorem subnibdResults : Obligations.SubnibdResults := by
  have hword := fun w i => (decode_eq_some_iff w i).mpr
  have htrip (sb : Sbox) (v : Block) (k : Nibble) :=
    fromMatrix_roundTrip (fun m => invSubNibDynamic_subNibDynamic sb m k) v
  refine ⟨hword _ _ rfl, hword _ _ rfl,
    fun s => ⟨exec_subnibd s, exec_invsubnibd s, fun zero => ⟨exec_subnibd_zero s zero, exec_invsubnibd_zero s zero⟩⟩, htrip,
    fun sb hsb => ?_⟩
  have hexample : fromMatrix (subNibDynamic sb (toMatrix 0x1234) 5) = 0x80D1 := by
    rw [subNibDynamic_ofTable hsb]
    decide
  exact ⟨hexample, hexample ▸ htrip sb 0x1234 5⟩

/-- Settles O18: the command words, what both commands write, the top byte, the fixed points, and the example with its way back. -/
theorem shiftRowsResults : Obligations.ShiftRowsResults := by
  have hword := fun w i => (decode_eq_some_iff w i).mpr
  have hexample : fromMatrix (shiftRows (toMatrix 0x1234)) = 0x1243 := by decide
  refine ⟨hword _ _ rfl, hword _ _ rfl, fun s => ⟨exec_shrows s, exec_invshrows s⟩, fun v => ⟨?_, fun hlow => ?_⟩, hexample,
    hexample ▸ fromMatrix_roundTrip shiftRows_shiftRows 0x1234⟩
  · have htop := highWord_fromMatrix_shiftRows (toMatrix v)
    rwa [fromMatrix_toMatrix] at htop
  · have hfixed : shiftRows (toMatrix v) = toMatrix v := shiftRows_eq_self hlow
    rw [hfixed, fromMatrix_toMatrix]

/-- Settles O19: the command words, what each command writes, linearity and the round trip, the corners column by column, and the
examples. -/
theorem mixColumnsResults : Obligations.MixColumnsResults := by
  have hword := fun w i => (decode_eq_some_iff w i).mpr
  have hmix (m : NibbleMatrix) : mixColumns m = _ := mixWith_eq 1 4 m
  refine ⟨hword _ _ rfl, hword _ _ rfl, fun s => ⟨?_, exec_invmixcol s⟩,
    fun u v => ⟨fromMatrix_mixWith_xor 1 4 u v, fromMatrix_mixWith_xor 9 2 u v, fromMatrix_roundTrip invMixColumns_mixColumns u⟩,
    by decide, fun m => ?_, by decide, by decide, by decide, by decide⟩
  · rw [exec_mixcol, mixColumns_eq]
    rfl
  · rw [hmix]
    exact ⟨fun nonzero ⟨htop, hbottom⟩ => nonzero (column_eq_zero_of_mixTop htop hbottom),
      fun nonzero ⟨htop, hbottom⟩ => nonzero (column_eq_zero_of_mixTop htop hbottom),
      fun one => ⟨mixTop_ne_zero_of_one one, mixTop_ne_zero_of_one (one ∘ Iff.symm)⟩,
      fun one => ⟨mixTop_ne_zero_of_one one, mixTop_ne_zero_of_one (one ∘ Iff.symm)⟩⟩

end Sys2Proof.Machine
end

section
/-! The cipher pipeline (43_cipher_pipeline.md). Encrypt and Decrypt are the same chain of whole-block steps read in the two directions, and
variant and override enter them through the masks alone; the round trip, the mask-zero equivalence and the four commands follow. -/

namespace Sys2Proof.Machine

/-! The masks -/

/-- The mask that a round key gives to a variant's substitution (R171): 0 for the baseline and under the override. -/
def cipherMask (v : Variant) (force0 : Bool) (k : Block) : Nibble :=
  if v = .enhanced ∧ force0 = false then roundKeyMask k else 0

@[simp] theorem cipherMask_baseline (force0 : Bool) (k : Block) : cipherMask .baseline force0 k = 0 := rfl

@[simp] theorem cipherMask_force0 (v : Variant) (k : Block) : cipherMask v true k = 0 := by cases v <;> rfl

/-- The two masks of R171 are those of K1 and K2. -/
theorem enhancedMasks_eq (sb : Sbox) (key : Block) (force0 : Bool) :
    enhancedMasks sb key force0 =
      (cipherMask .enhanced force0 (expandKey sb key).k1, cipherMask .enhanced force0 (expandKey sb key).k2) := by
  cases force0 with
  | false => rfl
  | true => rfl

/-- The baseline's substitution is the masked one under mask 0 (R155, R172). -/
theorem substitute_eq (sb : Sbox) (v : Variant) (force0 : Bool) (k : Block) (m : NibbleMatrix) :
    substitute sb v m (cipherMask .enhanced force0 k) = subNibDynamic sb m (cipherMask v force0 k) := by
  cases v with
  | baseline => exact (subNibDynamic_zero sb m).symm
  | enhanced => rfl

/-- The baseline's inverse substitution is the masked one under mask 0 (R155, R173). -/
theorem invSubstitute_eq (sb : Sbox) (v : Variant) (force0 : Bool) (k : Block) (m : NibbleMatrix) :
    invSubstitute sb v m (cipherMask .enhanced force0 k) = invSubNibDynamic sb m (cipherMask v force0 k) := by
  cases v with
  | baseline => exact (invSubNibDynamic_zero sb m).symm
  | enhanced => rfl

/-- A key with equal low nibbles has first mask 0 (R176). -/
theorem enhancedMasks_fst_eq_zero (sb : Sbox) (key : Block) (force0 : Bool)
    (equal : key.extractLsb' 4 4 = key.extractLsb' 0 4) : (enhancedMasks sb key force0).1 = 0 := by
  cases force0 with
  | true => rfl
  | false =>
    calc roundKeyMask (expandKey sb key).k1
        = key.extractLsb' 4 4 ^^^ key.extractLsb' 0 4 := by rw [expandKey_k1, roundKeyMask_nextRoundKey, nibbleFold_lowWord]
      _ = 0 := equal ▸ BitVec.xor_self

/-! The rounds as steps on blocks -/

/-- A transformation of matrices, applied to a packed block. -/
def onBlock (g : NibbleMatrix → NibbleMatrix) (b : Block) : Block := fromMatrix (g (toMatrix b))

/-- What undoes a transformation of matrices undoes it on blocks. -/
theorem onBlock_leftInverse {f g : NibbleMatrix → NibbleMatrix} (h : Function.LeftInverse g f) (b : Block) :
    onBlock g (onBlock f b) = b := fromMatrix_roundTrip h b

/-- The masked substitution of a block. -/
def subBlock (sb : Sbox) (k : Nibble) : Block → Block := onBlock fun m => subNibDynamic sb m k

/-- The masked inverse substitution of a block. -/
def invSubBlock (sb : Sbox) (k : Nibble) : Block → Block := onBlock fun m => invSubNibDynamic sb m k

@[simp] theorem invSubBlock_subBlock (sb : Sbox) (k : Nibble) (b : Block) : invSubBlock sb k (subBlock sb k b) = b :=
  onBlock_leftInverse (fun m => invSubNibDynamic_subNibDynamic sb m k) b

@[simp] theorem subBlock_invSubBlock (sb : Sbox) (k : Nibble) (b : Block) : subBlock sb k (invSubBlock sb k b) = b :=
  onBlock_leftInverse (fun m => subNibDynamic_invSubNibDynamic sb m k) b

/-- Encrypt, step by step on blocks (R172). -/
theorem encrypt_eq (sb : Sbox) (v : Variant) (p key : Block) (force0 : Bool) :
    encrypt sb v p key force0 =
      onBlock shiftRows (subBlock sb (cipherMask v force0 (expandKey sb key).k2)
        (onBlock mixColumns (onBlock shiftRows (subBlock sb (cipherMask v force0 (expandKey sb key).k1)
          (p ^^^ (expandKey sb key).k0))) ^^^ (expandKey sb key).k1)) ^^^ (expandKey sb key).k2 := by
  simp only [encrypt, enhancedMasks_eq, substitute_eq, fromMatrix_xorMatrix, subBlock, onBlock, toMatrix_xor, toMatrix_fromMatrix,
    fromMatrix_toMatrix]

/-- Decrypt, step by step on blocks (R173). -/
theorem decrypt_eq (sb : Sbox) (v : Variant) (c key : Block) (force0 : Bool) :
    decrypt sb v c key force0 =
      invSubBlock sb (cipherMask v force0 (expandKey sb key).k1)
        (onBlock shiftRows (onBlock invMixColumns (invSubBlock sb (cipherMask v force0 (expandKey sb key).k2)
          (onBlock shiftRows (c ^^^ (expandKey sb key).k2)) ^^^ (expandKey sb key).k1))) ^^^ (expandKey sb key).k0 := by
  simp only [decrypt, enhancedMasks_eq, invSubstitute_eq, fromMatrix_xorMatrix, invSubBlock, onBlock, toMatrix_xor,
    toMatrix_fromMatrix, fromMatrix_toMatrix]

/-- Settles O32: the steps on blocks are the ones written out nibble by nibble, and the masks are the folds of K1 and K2. -/
theorem cipherRoundsOnBlocks : Obligations.CipherRoundsOnBlocks :=
  fun sb v x key f => ⟨encrypt_eq sb v x key f, decrypt_eq sb v x key f⟩

/-! The round trip -/

/-- Decrypt takes back the steps of Encrypt one by one, the last one first (R178). -/
@[simp] theorem decrypt_encrypt (sb : Sbox) (v : Variant) (p key : Block) (force0 : Bool) :
    decrypt sb v (encrypt sb v p key force0) key force0 = p := by
  rw [encrypt_eq, decrypt_eq, xor_cancel_right, onBlock_leftInverse shiftRows_shiftRows, invSubBlock_subBlock, xor_cancel_right,
    onBlock_leftInverse invMixColumns_mixColumns, onBlock_leftInverse shiftRows_shiftRows, invSubBlock_subBlock, xor_cancel_right]

/-- Encrypt takes back the steps of Decrypt one by one, the last one first (R178). -/
@[simp] theorem encrypt_decrypt (sb : Sbox) (v : Variant) (c key : Block) (force0 : Bool) :
    encrypt sb v (decrypt sb v c key force0) key force0 = c := by
  rw [encrypt_eq, decrypt_eq, xor_cancel_right, subBlock_invSubBlock, onBlock_leftInverse shiftRows_shiftRows,
    onBlock_leftInverse mixColumns_invMixColumns, xor_cancel_right, subBlock_invSubBlock, onBlock_leftInverse shiftRows_shiftRows,
    xor_cancel_right]

/-- Encrypt is a bijection, with Decrypt as its inverse (R178). -/
theorem encrypt_bijective (sb : Sbox) (v : Variant) (key : Block) (force0 : Bool) :
    Function.Bijective fun p => encrypt sb v p key force0 :=
  Function.bijective_iff_has_inverse.mpr
    ⟨fun c => decrypt sb v c key force0, fun p => decrypt_encrypt sb v p key force0, fun c => encrypt_decrypt sb v c key force0⟩

/-! The masks as the only difference of the variants -/

/-- Variants and overrides with the same masks encrypt the same way (R172). -/
theorem encrypt_eq_of_cipherMask_eq {v w : Variant} {f g : Bool} (same : cipherMask v f = cipherMask w g) (sb : Sbox)
    (p key : Block) : encrypt sb v p key f = encrypt sb w p key g := by
  rw [encrypt_eq, encrypt_eq, same]

/-- Variants and overrides with the same masks decrypt the same way (R173). -/
theorem decrypt_eq_of_cipherMask_eq {v w : Variant} {f g : Bool} (same : cipherMask v f = cipherMask w g) (sb : Sbox)
    (c key : Block) : decrypt sb v c key f = decrypt sb w c key g := by
  rw [decrypt_eq, decrypt_eq, same]

/-- The override gives every variant the baseline's masks (R179). -/
theorem cipherMask_force0_eq_baseline (v : Variant) (force0 : Bool) : cipherMask v true = cipherMask .baseline force0 :=
  funext fun k => (cipherMask_force0 v k).trans (cipherMask_baseline force0 k).symm

/-- Under the override the enhanced variant encrypts as the baseline does (R179). -/
theorem encrypt_enhanced_force0 (sb : Sbox) (p key : Block) :
    encrypt sb .enhanced p key true = encrypt sb .baseline p key false :=
  encrypt_eq_of_cipherMask_eq (cipherMask_force0_eq_baseline .enhanced false) sb p key

/-- Under the override the enhanced variant decrypts as the baseline does (R179). -/
theorem decrypt_enhanced_force0 (sb : Sbox) (c key : Block) :
    decrypt sb .enhanced c key true = decrypt sb .baseline c key false :=
  decrypt_eq_of_cipherMask_eq (cipherMask_force0_eq_baseline .enhanced false) sb c key

/-! The commands -/

/-- ENC.B encrypts without override, whatever CTRL holds (R174). -/
theorem exec_encB (s : State) :
    exec .encB s = .next (completeWithResult (encrypt Config.params.sbox .baseline s.latch.a s.latch.b false) s) := rfl

/-- DEC.B decrypts without override, whatever CTRL holds (R175). -/
theorem exec_decB (s : State) :
    exec .decB s = .next (completeWithResult (decrypt Config.params.sbox .baseline s.latch.a s.latch.b false) s) := rfl

/-- ENC.E takes the override from LATCH.ctrl (R176). -/
theorem exec_encE (s : State) :
    exec .encE s = .next (completeWithResult (encrypt Config.params.sbox .enhanced s.latch.a s.latch.b s.latch.ctrl) s) := rfl

/-- DEC.E takes the override from LATCH.ctrl (R177). -/
theorem exec_decE (s : State) :
    exec .decE s = .next (completeWithResult (decrypt Config.params.sbox .enhanced s.latch.a s.latch.b s.latch.ctrl) s) := rfl

/-- A variant's encrypting command writes the ciphertext of LATCH.a; the baseline ignores the override (R174, R176). -/
theorem exec_encryptInstr (v : Variant) (s : State) :
    exec (encryptInstr v) s =
      .next (completeWithResult (encrypt Config.params.sbox v s.latch.a s.latch.b s.latch.ctrl) s) := by
  cases v with
  | baseline => exact exec_encB s
  | enhanced => exact exec_encE s

/-- A variant's decrypting command writes the plaintext of LATCH.a; the baseline ignores the override (R175, R177). -/
theorem exec_decryptInstr (v : Variant) (s : State) :
    exec (decryptInstr v) s =
      .next (completeWithResult (decrypt Config.params.sbox v s.latch.a s.latch.b s.latch.ctrl) s) := by
  cases v with
  | baseline => exact exec_decB s
  | enhanced => exact exec_decE s

/-- Settles O33: the two round trips of the cipher, and the first of them on what the two commands write. -/
theorem cipherRoundTrip : Obligations.CipherRoundTrip := by
  refine ⟨decrypt_encrypt, encrypt_bijective, fun v s => ⟨_, exec_encryptInstr v s, fun u ha hb hctrl => ?_⟩⟩
  refine ⟨_, exec_decryptInstr v u, ?_⟩
  rw [completeWithResult_result, ha, hb, hctrl, completeWithResult_result, decrypt_encrypt]

/-- With CTRL latched 1, ENC.E does what ENC.B does (R179). -/
theorem exec_encE_force0 (s : State) (force0 : s.latch.ctrl = true) : exec .encE s = exec .encB s := by
  rw [exec_encE, exec_encB, force0, encrypt_enhanced_force0]

/-- With CTRL latched 1, DEC.E does what DEC.B does (R179). -/
theorem exec_decE_force0 (s : State) (force0 : s.latch.ctrl = true) : exec .decE s = exec .decB s := by
  rw [exec_decE, exec_decB, force0, decrypt_enhanced_force0]

/-- Settles O34: under the override the masks of both variants are 0, in the cipher and in the commands. -/
theorem maskZeroEquivalence : Obligations.MaskZeroEquivalence :=
  ⟨fun sb p k => ⟨encrypt_enhanced_force0 sb p k, decrypt_enhanced_force0 sb p k⟩,
    fun s force0 => ⟨exec_encE_force0 s force0, exec_decE_force0 s force0⟩⟩

/-! The examples under the default table -/

/-- The default table as an SBOX (R103). -/
def defaultSbox : Sbox := ⟨tableAt defaultSboxTable, tableInverseAt defaultSboxTable, by decide, by decide⟩

/-- The SBOX built from the default table is `defaultSbox`: it has the same entries (R103). -/
theorem sbox_eq_defaultSbox {sb : Sbox} (h : Sbox.ofTable defaultSboxTable = .ok sb) : sb = defaultSbox :=
  Equiv.ext fun x => (sbox_ofTable_entries h x).1

/-- The spec's example of the baseline (R174), which is the enhanced variant's under the override (R176). -/
theorem encrypt_baseline_example : encrypt defaultSbox .baseline 0x1234 0x3A94 false = 0x6035 := by decide

/-- Settles O20: the command words, what each command writes, the round trip, and the examples, the way back being the round trip. -/
theorem baselineCipherResults : Obligations.BaselineCipherResults := by
  have hword := fun w i => (decode_eq_some_iff w i).mpr
  have htrip (sb : Sbox) (p k : Block) := decrypt_encrypt sb .baseline p k false
  refine ⟨hword _ _ rfl, hword _ _ rfl, fun s => ⟨exec_encB s, exec_decB s⟩, htrip, fun sb hsb => ?_⟩
  obtain rfl := sbox_eq_defaultSbox hsb
  exact ⟨encrypt_baseline_example, encrypt_baseline_example ▸ htrip defaultSbox 0x1234 0x3A94, by decide⟩

/-- Settles O21: the command words, what each command writes, the round trip, keys with equal low nibbles, and the examples; under the
override the example is the baseline's. -/
theorem enhancedCipherResults : Obligations.EnhancedCipherResults := by
  have hword := fun w i => (decode_eq_some_iff w i).mpr
  refine ⟨hword _ _ rfl, hword _ _ rfl, fun s => ⟨exec_encE s, exec_decE s, exec_encE_force0 s⟩,
    fun sb p k f => ⟨decrypt_encrypt sb .enhanced p k f, fun equal => ?_⟩, fun sb hsb => ?_⟩
  · have hzero := enhancedMasks_fst_eq_zero sb k f equal
    refine ⟨hzero, fun m => ?_⟩
    rw [hzero]
    exact subNibDynamic_zero sb m
  · obtain rfl := sbox_eq_defaultSbox hsb
    have hexample : encrypt defaultSbox .enhanced 0x1234 0x3A94 false = 0x18F4 := by decide
    exact ⟨hexample, hexample ▸ decrypt_encrypt defaultSbox .enhanced 0x1234 0x3A94 false,
      (encrypt_enhanced_force0 _ _ _).trans encrypt_baseline_example, by decide, by decide, by decide⟩

end Sys2Proof.Machine
end

section
/-! The trials of the harness (44_harness.md R190 to R194, R204): a distance counts the positions at which two ciphertexts differ, and how
many nibbles of the state differ as a flipped plaintext bit goes through the rounds. -/

namespace Sys2Proof.Machine

/-! The Hamming distance -/

/-- The Hamming distance counts the bit positions at which two blocks differ (R193). -/
theorem hammingDistance_eq_card (u v : Block) :
    hammingDistance u v = ((Finset.range 16).filter (fun j => u.getLsbD j ≠ v.getLsbD j)).card := by
  have hbit (j : Nat) : (u ^^^ v).getLsbD j = decide (u.getLsbD j ≠ v.getLsbD j) := by
    rw [BitVec.getLsbD_xor]
    cases u.getLsbD j <;> cases v.getLsbD j <;> rfl
  simp only [hammingDistance, popcount, hbit, List.countP_eq_length_filter]
  rfl

/-- A distance of two ciphertexts is at most 16, however they arise (R204). -/
theorem trialDistance_le (sb : Sbox) (v : Variant) (x : Experiment) (d : Draw) (force0 : Bool) :
    trialDistance sb v x d force0 ≤ 16 := popcount_le _

/-- Flipping a bit is XOR with the bit's weight (R191). -/
theorem flipBit_eq (v : Block) (b : Nibble) : flipBit v b = v ^^^ BitVec.ofNat 16 (2 ^ b.toNat) := by
  refine congrArg (v ^^^ ·) (BitVec.eq_of_toNat_eq ?_)
  simp [Nat.shiftLeft_eq]

/-- The plaintext experiment compares the ciphertexts of the drawn plaintext and of the flipped one, under the drawn key (R194). -/
theorem trialDistance_pt (sb : Sbox) (v : Variant) (d : Draw) (force0 : Bool) :
    trialDistance sb v .pt d force0 = ((Finset.range 16).filter (fun j => (encrypt sb v d.p d.k force0).getLsbD j ≠
      (encrypt sb v (d.p ^^^ BitVec.ofNat 16 (2 ^ d.b.toNat)) d.k force0).getLsbD j)).card := by
  rw [trialDistance, hammingDistance_eq_card, ← flipBit_eq]
  rfl

/-- The key experiment compares the ciphertexts of the drawn plaintext under the drawn key and under the flipped one (R194). -/
theorem trialDistance_key (sb : Sbox) (v : Variant) (d : Draw) (force0 : Bool) :
    trialDistance sb v .key d force0 = ((Finset.range 16).filter (fun j => (encrypt sb v d.p d.k force0).getLsbD j ≠
      (encrypt sb v d.p (d.k ^^^ BitVec.ofNat 16 (2 ^ d.b.toNat)) force0).getLsbD j)).card := by
  rw [trialDistance, hammingDistance_eq_card, ← flipBit_eq]
  rfl

/-- Record `i` of a run is trial `i`, whatever the number of trials (R194). -/
theorem harness_getElem? (P : Params) (x : Experiment) (n : Nat) (seed : BusWord) (force0 : Bool) (i : Nat) (hi : i < n) :
    (harness P x n seed force0)[i]? = some (trial P x seed force0 i) := by
  simp [harness, hi]

/-- Settles O35: the flip is an XOR with one weight, and a distance counts the positions that differ. -/
theorem trialMeasuresTheFlip : Obligations.TrialMeasuresTheFlip := by
  refine fun P x seed f => ⟨fun i => ⟨rfl, rfl, rfl, rfl, ?_, ?_⟩,
    fun n => ⟨harness_length P x n seed f, harness_getElem? P x n seed f⟩⟩
  · rintro rfl
    exact ⟨trialDistance_pt .., trialDistance_pt ..⟩
  · rintro rfl
    exact ⟨trialDistance_key .., trialDistance_key ..⟩

/-! Differing nibbles -/

/-- 1 where two nibbles differ, 0 where they agree. -/
def nibbleDiffers (a b : Nibble) : Nat := if a = b then 0 else 1

/-- In how many nibbles two columns differ. -/
def columnDistance (a b c d : Nibble) : Nat := nibbleDiffers a c + nibbleDiffers b d

/-- In how many nibbles two matrices differ, column by column. -/
def nibbleDistance (m n : NibbleMatrix) : Nat :=
  columnDistance m.n00 m.n10 n.n00 n.n10 + columnDistance m.n01 m.n11 n.n01 n.n11

/-- In how many nibbles two blocks differ. -/
def blockDistance (u v : Block) : Nat := nibbleDistance (toMatrix u) (toMatrix v)

/-- An injective map keeps apart what differs. -/
theorem nibbleDiffers_map {f : Nibble → Nibble} (hf : Function.Injective f) (a b : Nibble) :
    nibbleDiffers (f a) (f b) = nibbleDiffers a b := by
  simp only [nibbleDiffers, hf.eq_iff]

theorem nibbleDiffers_xor (a b c : Nibble) : nibbleDiffers (a ^^^ c) (b ^^^ c) = nibbleDiffers a b :=
  nibbleDiffers_map (xorPerm c).injective a b

/-- A substitution keeps differing nibbles where they are, whatever the SBOX and the mask (R140, R141). -/
theorem nibbleDistance_subNib (sb : Sbox) (m n : NibbleMatrix) : nibbleDistance (subNib sb m) (subNib sb n) = nibbleDistance m n := by
  simp only [nibbleDistance, columnDistance, subNib, mapMatrix, sboxAt, nibbleDiffers_map sb.injective]

/-- The row shift moves differing nibbles and makes none (R144). -/
theorem nibbleDistance_shiftRows (m n : NibbleMatrix) : nibbleDistance (shiftRows m) (shiftRows n) = nibbleDistance m n := by
  simp only [nibbleDistance, columnDistance, shiftRows]
  omega

/-- Adding one and the same round key makes no difference (R122). -/
theorem nibbleDistance_xorMatrix (m n k : NibbleMatrix) :
    nibbleDistance (xorMatrix m k) (xorMatrix n k) = nibbleDistance m n := by
  simp only [nibbleDistance, columnDistance, xorMatrix, nibbleDiffers_xor]

/-- The top nibbles of two mixed columns differ where the columns differ in one nibble, by the linearity of the mix (R153). -/
theorem mixTop_ne_of_one {a b c d : Nibble} (one : ¬(a = c ↔ b = d)) : mixTop 1 4 a b ≠ mixTop 1 4 c d := by
  have hdiff : mixTop 1 4 (a ^^^ c) (b ^^^ d) ≠ 0 := mixTop_ne_zero_of_one (by rwa [xor_eq_zero_iff, xor_eq_zero_iff])
  rwa [mixTop_xor, ne_eq, xor_eq_zero_iff] at hdiff

/-- Two columns that differ in one nibble differ in both after the mix (R153). -/
theorem columnDistance_mixTop_of_one {a b c d : Nibble} (one : columnDistance a b c d = 1) :
    columnDistance (mixTop 1 4 a b) (mixTop 1 4 b a) (mixTop 1 4 c d) (mixTop 1 4 d c) = 2 := by
  have hone : ¬(a = c ↔ b = d) := by
    unfold columnDistance nibbleDiffers at one
    grind
  rw [columnDistance, nibbleDiffers, nibbleDiffers, if_neg (mixTop_ne_of_one hone), if_neg (mixTop_ne_of_one (hone ∘ Iff.symm))]

/-- Equal columns stay equal. -/
theorem columnDistance_mixTop_of_zero {a b c d : Nibble} (zero : columnDistance a b c d = 0) :
    columnDistance (mixTop 1 4 a b) (mixTop 1 4 b a) (mixTop 1 4 c d) (mixTop 1 4 d c) = 0 := by
  have heq : a = c ∧ b = d := by
    unfold columnDistance nibbleDiffers at zero
    grind
  simp [columnDistance, nibbleDiffers, heq]

/-- Two states that differ in one nibble differ in two after the mix, those of its column (R153). -/
theorem nibbleDistance_mixColumns_of_one {m n : NibbleMatrix} (one : nibbleDistance m n = 1) :
    nibbleDistance (mixColumns m) (mixColumns n) = 2 := by
  rw [mixColumns, mixColumns, mixWith_eq, mixWith_eq]
  rcases Nat.add_eq_one_iff.mp one with ⟨hleft, hright⟩ | ⟨hleft, hright⟩
  · exact congrArg₂ (· + ·) (columnDistance_mixTop_of_zero hleft) (columnDistance_mixTop_of_one hright)
  · exact congrArg₂ (· + ·) (columnDistance_mixTop_of_one hleft) (columnDistance_mixTop_of_zero hright)

theorem blockDistance_xor (u v k : Block) : blockDistance (u ^^^ k) (v ^^^ k) = blockDistance u v := by
  rw [blockDistance, toMatrix_xor, toMatrix_xor, nibbleDistance_xorMatrix]
  rfl

theorem blockDistance_onBlock (g : NibbleMatrix → NibbleMatrix) (u v : Block) :
    blockDistance (onBlock g u) (onBlock g v) = nibbleDistance (g (toMatrix u)) (g (toMatrix v)) := by
  rw [blockDistance, onBlock, onBlock, toMatrix_fromMatrix, toMatrix_fromMatrix]

theorem blockDistance_shiftRows (u v : Block) : blockDistance (onBlock shiftRows u) (onBlock shiftRows v) = blockDistance u v := by
  rw [blockDistance_onBlock, nibbleDistance_shiftRows]
  rfl

theorem blockDistance_subBlock (sb : Sbox) (k : Nibble) (u v : Block) :
    blockDistance (subBlock sb k u) (subBlock sb k v) = blockDistance u v := by
  rw [subBlock, blockDistance_onBlock, subNibDynamic_eq, subNibDynamic_eq, nibbleDistance_subNib]
  rfl

theorem blockDistance_mixColumns_of_one {u v : Block} (one : blockDistance u v = 1) :
    blockDistance (onBlock mixColumns u) (onBlock mixColumns v) = 2 := by
  rw [blockDistance_onBlock]
  exact nibbleDistance_mixColumns_of_one one

/-- Two plaintexts that differ in one nibble have ciphertexts under one key that differ in two: the first round's mix makes two of the one,
and no other step changes their number (R204). -/
theorem blockDistance_encrypt (sb : Sbox) (v : Variant) {p q : Block} (key : Block) (force0 : Bool) (one : blockDistance p q = 1) :
    blockDistance (encrypt sb v p key force0) (encrypt sb v q key force0) = 2 := by
  rw [encrypt_eq, encrypt_eq, blockDistance_xor, blockDistance_shiftRows, blockDistance_subBlock, blockDistance_xor]
  refine blockDistance_mixColumns_of_one ?_
  rw [blockDistance_shiftRows, blockDistance_subBlock, blockDistance_xor, one]

/-- A flipped bit makes one nibble differ (R191). -/
theorem blockDistance_flipBit (p : Block) (b : Nibble) : blockDistance p (flipBit p b) = 1 := by
  have hweight : ∀ b : Nibble, blockDistance 0 (1#16 <<< b.toNat) = 1 := by decide
  have hxor := blockDistance_xor 0 (1#16 <<< b.toNat) p
  rwa [hweight b, zero_xor, BitVec.xor_comm] at hxor

/-! Differing bits and differing nibbles -/

/-- The number of 1 bits of a nibble. -/
def nibblePopcount (a : Nibble) : Nat := (List.range 4).countP (fun i => a.getLsbD i)

/-- The 1 bits of a packed matrix are those of its nibbles. -/
theorem popcount_fromMatrix (m : NibbleMatrix) :
    popcount (fromMatrix m) = nibblePopcount m.n11 + nibblePopcount m.n10 + nibblePopcount m.n01 + nibblePopcount m.n00 := by
  simp [popcount, nibblePopcount, fromMatrix_getLsbD, List.range_succ, List.countP_cons]
  omega

/-- Two nibbles that differ do so in 1 to 4 bits. -/
theorem nibblePopcount_xor_bounds (a b : Nibble) :
    nibbleDiffers a b ≤ nibblePopcount (a ^^^ b) ∧ nibblePopcount (a ^^^ b) ≤ 4 * nibbleDiffers a b := by
  have hbits : ∀ c : Nibble, nibbleDiffers c 0 ≤ nibblePopcount c ∧ nibblePopcount c ≤ 4 * nibbleDiffers c 0 := by decide
  have hxor := nibbleDiffers_xor a b b
  rw [BitVec.xor_self] at hxor
  exact hxor ▸ hbits (a ^^^ b)

/-- Two blocks differ in 1 to 4 bits for each nibble in which they differ. -/
theorem hammingDistance_bounds (u v : Block) :
    blockDistance u v ≤ hammingDistance u v ∧ hammingDistance u v ≤ 4 * blockDistance u v := by
  rw [hammingDistance, ← fromMatrix_xorMatrix_toMatrix, popcount_fromMatrix]
  have h00 := nibblePopcount_xor_bounds (toMatrix u).n00 (toMatrix v).n00
  have h01 := nibblePopcount_xor_bounds (toMatrix u).n01 (toMatrix v).n01
  have h10 := nibblePopcount_xor_bounds (toMatrix u).n10 (toMatrix v).n10
  have h11 := nibblePopcount_xor_bounds (toMatrix u).n11 (toMatrix v).n11
  simp only [blockDistance, nibbleDistance, columnDistance, xorMatrix]
  omega

/-- In the plaintext experiment two nibbles of the ciphertexts differ (R204). -/
theorem trialDistance_pt_bounds (sb : Sbox) (v : Variant) (d : Draw) (force0 : Bool) :
    2 ≤ trialDistance sb v .pt d force0 ∧ trialDistance sb v .pt d force0 ≤ 8 := by
  have htwo := blockDistance_encrypt sb v d.k force0 (blockDistance_flipBit d.p d.b)
  have hbounds := hammingDistance_bounds (encrypt sb v d.p d.k force0) (encrypt sb v (flipBit d.p d.b) d.k force0)
  rwa [htwo] at hbounds

/-- Settles O36: a block has 16 bits, and a flipped plaintext bit makes two nibbles of the ciphertext differ. -/
theorem distanceBounds : Obligations.DistanceBounds := by
  refine fun P x seed f i => ⟨trialDistance_le .., trialDistance_le .., ?_⟩
  rintro rfl
  obtain ⟨lowB, highB⟩ := trialDistance_pt_bounds P.sbox .baseline (P.trialSource .pt seed i) false
  obtain ⟨lowE, highE⟩ := trialDistance_pt_bounds P.sbox .enhanced (P.trialSource .pt seed i) f
  exact ⟨lowB, highB, lowE, highE⟩

end Sys2Proof.Machine
end

section
/-! What a harness command writes (44_harness.md R195 to R198, R203): the errors of its trial count, the state it completes in, and its
records field by field. -/

namespace Sys2Proof.Machine

/-! The outcome of a harness command -/

/-- No trial is TRIALS_ZERO (R198). -/
theorem checkTrials_zero (P : Params) : checkTrials P 0 = some .trialsZero := rfl

/-- More trials than TREC holds are TRIALS_RANGE (R198). -/
theorem checkTrials_above (P : Params) (t : Nat) (above : P.tMax < t) : checkTrials P t = some .trialsRange := by
  rw [checkTrials, if_neg (by omega), if_pos above]

/-- A count that the check refuses ends the command with that error (R198). -/
theorem runHarness_error (P : Params) (x : Experiment) (s : State) (e : CmdError)
    (refused : checkTrials P s.latch.trials.toNat = some e) : runHarness P x s = raiseCmdError e s := by
  have hcheck : checkTrials P (operandTrials s) = some e := refused
  simp only [runHarness, hcheck]

/-- A refused count makes the command an error of the machine (60_exceptions.md R224, R225). -/
theorem exec_avalancheInstr_error (x : Experiment) (s : State) (e : CmdError)
    (refused : checkTrials Config.params s.latch.trials.toNat = some e) :
    exec (avalancheInstr x) s = .next (raiseCmdError e s) := by
  rw [exec_avalancheInstr, runHarness_error _ x s e refused]

/-- Settles O23: the check refuses both counts, and an error writes STATUS alone. -/
theorem trialCountErrors : Obligations.TrialCountErrors := by
  refine fun s x => ⟨fun zero => ?_, fun above => ?_⟩
  · exact exec_avalancheInstr_error x s .trialsZero (by rw [zero, checkTrials_zero])
  · exact exec_avalancheInstr_error x s .trialsRange (checkTrials_above _ _ above)

/-- The records that a harness command makes at `s`. -/
def runRecords (x : Experiment) (s : State) : List TrialRecord :=
  harness Config.params x s.latch.trials.toNat s.latch.seed s.latch.ctrl

theorem runRecords_length (x : Experiment) (s : State) : (runRecords x s).length = s.latch.trials.toNat := harness_length ..

/-- The state in which a harness command that passes its check completes (R196, R197). -/
def harnessCompleted (x : Experiment) (s : State) : State := complete (writeHarness x (runRecords x s) s)

/-- A harness command of a legal trial count completes with the records of its run. -/
theorem exec_avalancheInstr_legal (x : Experiment) (s : State) (pos : 1 ≤ s.latch.trials.toNat)
    (le : s.latch.trials.toNat ≤ Config.params.tMax) : exec (avalancheInstr x) s = .next (harnessCompleted x s) := by
  rw [exec_avalancheInstr, runHarness_legal _ x s pos le]
  rfl

@[simp] theorem harnessCompleted_trec (x : Experiment) (s : State) :
    (harnessCompleted x s).trec = writeRecords s.trec (runRecords x s) := rfl

@[simp] theorem harnessCompleted_statB (x : Experiment) (s : State) :
    (harnessCompleted x s).statB = statsOf ((runRecords x s).map TrialRecord.dB) := rfl

@[simp] theorem harnessCompleted_statE (x : Experiment) (s : State) :
    (harnessCompleted x s).statE = statsOf ((runRecords x s).map TrialRecord.dE) := rfl

/-- Bytes outside the records of the run stay (20_memory.md R57). -/
theorem harnessCompleted_readByte_outside (x : Experiment) (s : State) (a : Nat)
    (outside : a < 0x10000 ∨ 0x10000 + 8 * s.latch.trials.toNat ≤ a) :
    Memory.readByte (harnessCompleted x s).trec a = Memory.readByte s.trec a := by
  rw [harnessCompleted_trec]
  refine readByte_writeRecords_outside _ _ a ?_
  rw [runRecords_length]
  exact outside

/-- Settles O22: a legal count completes, with the experiment's own code in LAST_EXP and the bytes outside its records kept. -/
theorem harnessCommandsComplete : Obligations.HarnessCommandsComplete := by
  refine fun s pos le x => ⟨?_, harnessCompleted_readByte_outside x s⟩
  rw [exec_avalancheInstr_legal x s pos le]
  cases x with
  | pt => rfl
  | key => rfl

/-! The records written -/

/-- Both words of record `i` of the run hold trial `i` (R195). -/
theorem harnessCompleted_readWord (x : Experiment) (s : State) (i : Nat) (hi : i < s.latch.trials.toNat) :
    Memory.readWord (harnessCompleted x s).trec (trecWord0 i) =
        some (recordWord0 (trial Config.params x s.latch.seed s.latch.ctrl i)) ∧
      Memory.readWord (harnessCompleted x s).trec (trecWord1 i) =
        some (recordWord1 (trial Config.params x s.latch.seed s.latch.ctrl i)) :=
  readWord_writeRecords _ _ i _ (harness_getElem? _ x _ _ _ i hi)

/-- TREC word 0 is the key over the plaintext (R195). -/
theorem recordWord0_eq (r : TrialRecord) : recordWord0 r = r.k ++ r.p := by
  refine BitVec.eq_of_getLsbD_eq fun i hi => ?_
  simp only [recordWord0, BitVec.getLsbD_or, BitVec.getLsbD_shiftLeft, BitVec.getLsbD_setWidth, BitVec.getLsbD_append]
  grind

/-- Field [3:0] of TREC word 1 is the bit index, bit 4 the experiment, and bits 7 to 5, 15 to 13 and 31 to 21 are 0 (R195). -/
theorem recordWord1_fields (r : TrialRecord) (hB : r.dB ≤ 16) (hE : r.dE ≤ 16) :
    (recordWord1 r).extractLsb' 0 4 = r.b ∧ (recordWord1 r).getLsbD 4 = decide (r.target = .key) ∧
      (recordWord1 r).extractLsb' 5 3 = 0#3 ∧ (recordWord1 r).extractLsb' 13 3 = 0#3 ∧
      (recordWord1 r).extractLsb' 21 11 = 0#11 := by
  have hbit := recordWord1_getLsbD r hB hE
  refine ⟨?_, hbit 4 (by decide), ?_, ?_, ?_⟩ <;> refine extractLsb'_eq_of_getLsbD _ _ _ fun i hi => ?_ <;>
    rw [hbit _ (by omega)]
  · grind
  · grind
  · grind
  · grind

/-- The distance fields of TREC word 1 hold the distances, which are at most 16 and so fit in them (R195). -/
theorem recordWord1_distances (r : TrialRecord) (hB : r.dB ≤ 16) (hE : r.dE ≤ 16) :
    ((recordWord1 r).extractLsb' 8 5).toNat = r.dB ∧ ((recordWord1 r).extractLsb' 16 5).toNat = r.dE := by
  rw [recordWord1_dB r hB hE, recordWord1_dE r hB hE, BitVec.toNat_ofNat, BitVec.toNat_ofNat]
  omega

/-- Settles O24: record `i` is read back as trial `i`, and its words are taken apart field by field. -/
theorem harnessWritesRecords : Obligations.HarnessWritesRecords := by
  refine fun s x pos le => ⟨_, exec_avalancheInstr_legal x s pos le, fun i hi => ?_, harnessCompleted_readByte_outside x s⟩
  intro r
  obtain ⟨hword0, hword1⟩ := harnessCompleted_readWord x s i hi
  have hB : r.dB ≤ 16 := trialDistance_le ..
  have hE : r.dE ≤ 16 := trialDistance_le ..
  obtain ⟨hindex, htarget, h5, h13, h21⟩ := recordWord1_fields r hB hE
  obtain ⟨hdB, hdE⟩ := recordWord1_distances r hB hE
  have haddr : 0x10004 + 8 * i = trecWord1 i := by rw [trecWord1, trecBase]; omega
  rw [recordWord0_eq] at hword0
  rw [haddr]
  exact ⟨hword0, recordWord1 r, hword1, hindex, htarget, hdB, hdE, h5, h13, h21⟩

/-- Settles O37: both runs' records are those of their trials, which the count plays no part in, and equal counts make equal runs. -/
theorem harnessReproducible : Obligations.HarnessReproducible := by
  intro x s1 s2 hseed hctrl pos fewer le
  refine ⟨_, _, exec_avalancheInstr_legal x s1 pos (fewer.trans le), exec_avalancheInstr_legal x s2 (pos.trans fewer) le,
    fun i hi => ?_, fun htrials => ?_⟩
  · obtain ⟨hword0, hword1⟩ := harnessCompleted_readWord x s1 i hi
    obtain ⟨hword0', hword1'⟩ := harnessCompleted_readWord x s2 i (hi.trans_le fewer)
    rw [hword0, hword1, hword0', hword1', hseed, hctrl]
    exact ⟨rfl, rfl, rfl⟩
  · have hruns : runRecords x s1 = runRecords x s2 := by rw [runRecords, runRecords, htrials, hseed, hctrl]
    rw [harnessCompleted_statB, harnessCompleted_statE, hruns]
    exact ⟨rfl, rfl⟩

end Sys2Proof.Machine
end

section
/-! The statistics of a harness run (44_harness.md R199 to R202): the STAT registers hold the samples' own count, sums and ends, and the
mean and the standard deviation computed from them are the samples' own. -/

namespace Sys2Proof.Machine

/-! The registers of a sequence of samples -/

/-- A number that fits in a field is read back from it. -/
theorem toNat_ofNat_eq_self {w n : Nat} (fits : n < 2 ^ w) : (BitVec.ofNat w n).toNat = n := by
  rw [BitVec.toNat_ofNat, Nat.mod_eq_of_lt fits]

/-- A sequence of samples that a run can make: 1 to 8192 of them (00_scope.md R13), each at most 16 (R204). -/
structure RunSamples (ds : List Nat) : Prop where
  pos : 1 ≤ ds.length
  short : ds.length ≤ 8192
  small : ∀ d ∈ ds, d ≤ 16

namespace RunSamples

variable {ds : List Nat} (run : RunSamples ds)
include run

/-- The sum of at most 8192 samples (10_state.md R40). -/
theorem sum_le : ds.sum ≤ 131072 := by
  have hsum : ds.sum ≤ ds.length * 16 := List.sum_le_card_nsmul ds 16 run.small
  have hshort := run.short
  omega

/-- The sum of at most 8192 squares (10_state.md R41). -/
theorem sumsq_le : (ds.map (fun d => d * d)).sum ≤ 2097152 := by
  have hsquare : ∀ q ∈ ds.map (fun d => d * d), q ≤ 256 := by
    intro q hq
    obtain ⟨d, hd, rfl⟩ := List.mem_map.mp hq
    exact Nat.mul_le_mul (run.small d hd) (run.small d hd)
  have hsum := List.sum_le_card_nsmul _ 256 hsquare
  rw [List.length_map, smul_eq_mul] at hsum
  have hshort := run.short
  omega

theorem count_toNat : (statsOf ds).count.toNat = ds.length := by
  have hshort := run.short
  exact toNat_ofNat_eq_self (by omega)

theorem count_pos : 1 ≤ (statsOf ds).count.toNat := by
  rw [run.count_toNat]
  exact run.pos

theorem length_ne_zero : (ds.length : ℚ) ≠ 0 := Nat.cast_ne_zero.mpr (Nat.one_le_iff_ne_zero.mp run.pos)

theorem sum_toNat : (statsOf ds).sum.toNat = ds.sum := by
  have hsum := run.sum_le
  exact toNat_ofNat_eq_self (by omega)

theorem sumsq_toNat : (statsOf ds).sumsq.toNat = (ds.map (fun d => d * d)).sum := by
  have hsumsq := run.sumsq_le
  exact toNat_ofNat_eq_self (by omega)

/-- The least sample is a sample, and no sample is less (R202). -/
theorem sampleMin_spec : sampleMin ds ∈ ds ∧ ∀ d ∈ ds, sampleMin ds ≤ d := by
  cases ds with
  | nil => exact absurd run.pos (by decide)
  | cons d rest =>
    obtain ⟨hfirst, hrest⟩ := foldl_min_le rest d
    exact ⟨List.mem_cons.mpr (foldl_min_mem rest d), List.forall_mem_cons.mpr ⟨hfirst, hrest⟩⟩

/-- The greatest sample is a sample, and no sample is greater (R202). -/
theorem sampleMax_spec : sampleMax ds ∈ ds ∧ ∀ d ∈ ds, d ≤ sampleMax ds := by
  cases ds with
  | nil => exact absurd run.pos (by decide)
  | cons d rest =>
    have hstart : sampleMax (d :: rest) = rest.foldl Nat.max d := congrArg (rest.foldl Nat.max) (Nat.zero_max d)
    rw [hstart]
    obtain ⟨hfirst, hrest⟩ := foldl_max_le rest d
    exact ⟨List.mem_cons.mpr (foldl_max_mem rest d), List.forall_mem_cons.mpr ⟨hfirst, hrest⟩⟩

theorem min_toNat : (statsOf ds).min.toNat = sampleMin ds := by
  have hmin := run.small _ run.sampleMin_spec.1
  exact toNat_ofNat_eq_self (by omega)

theorem max_toNat : (statsOf ds).max.toNat = sampleMax ds := by
  have hmax := run.small _ run.sampleMax_spec.1
  exact toNat_ofNat_eq_self (by omega)

end RunSamples

/-- A sum over the indices of a run, as a list and as a finite sum. -/
theorem sum_map_range (d : Nat → Nat) (n : Nat) : ((List.range n).map d).sum = ∑ i ∈ Finset.range n, d i := rfl

theorem runSamples_range {d : Nat → Nat} {n : Nat} (pos : 1 ≤ n) (short : n ≤ 8192) (small : ∀ i, d i ≤ 16) :
    RunSamples ((List.range n).map d) where
  pos := by rwa [List.length_map, List.length_range]
  short := by rwa [List.length_map, List.length_range]
  small := List.forall_mem_map.mpr fun i _ => small i

/-- The statistics `st` are those of the samples `d 0` to `d (n - 1)`, and in the ranges of their registers (R199, R202). -/
def StatisticsOf (st : Stats) (n : Nat) (d : Nat → Nat) : Prop :=
  st.count.toNat = n ∧ st.sum.toNat = ∑ i ∈ Finset.range n, d i ∧ st.sumsq.toNat = ∑ i ∈ Finset.range n, d i * d i ∧
    st.sum.toNat ≤ 131072 ∧ st.sumsq.toNat ≤ 2097152 ∧ st.min.toNat ≤ 16 ∧ st.max.toNat ≤ 16 ∧
    (∀ i, i < n → st.min.toNat ≤ d i ∧ d i ≤ st.max.toNat) ∧ (∃ i, i < n ∧ d i = st.min.toNat) ∧ ∃ i, i < n ∧ d i = st.max.toNat

theorem statisticsOf_statsOf {d : Nat → Nat} {n : Nat} (pos : 1 ≤ n) (short : n ≤ 8192) (small : ∀ i, d i ≤ 16) :
    StatisticsOf (statsOf ((List.range n).map d)) n d := by
  have run := runSamples_range pos short small
  obtain ⟨hminMem, hminLe⟩ := run.sampleMin_spec
  obtain ⟨hmaxMem, hmaxLe⟩ := run.sampleMax_spec
  have hsample {i : Nat} (hi : i < n) : d i ∈ (List.range n).map d := List.mem_map_of_mem (List.mem_range.mpr hi)
  have hindex {q : Nat} (hq : q ∈ (List.range n).map d) : ∃ i, i < n ∧ d i = q := by simpa using hq
  rw [StatisticsOf, run.count_toNat, run.sum_toNat, run.sumsq_toNat, run.min_toNat, run.max_toNat]
  refine ⟨by simp, sum_map_range d n, ?_, run.sum_le, run.sumsq_le, run.small _ hminMem, run.small _ hmaxMem,
    fun i hi => ⟨hminLe _ (hsample hi), hmaxLe _ (hsample hi)⟩, hindex hminMem, hindex hmaxMem⟩
  rw [List.map_map]
  exact sum_map_range (fun i => d i * d i) n

/-- Settles O25: the STAT registers of a completed run are those of its samples, of either variant. -/
theorem harnessWritesStatistics : Obligations.HarnessWritesStatistics := by
  refine fun s x pos le => ⟨_, exec_avalancheInstr_legal x s pos le, ?_⟩
  have hshort := le.trans (tMax_le Config.params)
  rintro st d (⟨rfl, rfl⟩ | ⟨rfl, rfl⟩)
  · rw [harnessCompleted_statB, runRecords, harness_map_dB]
    exact statisticsOf_statsOf pos hshort fun i => trialDistance_le ..
  · rw [harnessCompleted_statE, runRecords, harness_map_dE]
    exact statisticsOf_statsOf pos hshort fun i => trialDistance_le ..

/-! The mean and the standard deviation -/

/-- N*Q - S*S, the numerator under the root of R201. -/
def spread (st : Stats) : ℚ := st.count.toNat * st.sumsq.toNat - (st.sum.toNat : ℚ) * st.sum.toNat

theorem count_ne_zero {st : Stats} (pos : 1 ≤ st.count.toNat) : st.count ≠ 0 :=
  fun hzero => absurd (congrArg BitVec.toNat hzero) (Nat.one_le_iff_ne_zero.mp pos)

/-- The mean is SUM / COUNT (R200). -/
theorem meanOf_eq (st : Stats) (pos : 1 ≤ st.count.toNat) : meanOf st = some ((st.sum.toNat : ℚ) / st.count.toNat) :=
  if_neg (count_ne_zero pos)

/-- The population variance divides the spread by N*N (R201). -/
theorem stddevSquared_population (st : Stats) (pos : 1 ≤ st.count.toNat) :
    stddevSquared .population st = some (spread st / (st.count.toNat * st.count.toNat)) :=
  if_neg (count_ne_zero pos)

/-- The sample variance divides the spread by N*(N-1), for two samples or more (R201). -/
theorem stddevSquared_sample (st : Stats) (two : 2 ≤ st.count.toNat) :
    stddevSquared .sample st = some (spread st / (st.count.toNat * (st.count.toNat - 1))) :=
  if_neg (by omega)

/-- One sample has no sample variance (R201). -/
theorem stddevSquared_sample_one (st : Stats) (one : st.count.toNat = 1) : stddevSquared .sample st = none :=
  if_pos (by omega)

/-- The number under the root of the population deviation is as non-negative as the spread. -/
theorem population_nonneg {q : ℚ} (n : Nat) (nonneg : 0 ≤ q) : 0 ≤ q / ((n : ℚ) * n) := by positivity

/-- The number under the root of the sample deviation is as non-negative as the spread, for two samples or more. -/
theorem sample_nonneg {q : ℚ} {n : Nat} (two : 2 ≤ n) (nonneg : 0 ≤ q) : 0 ≤ q / ((n : ℚ) * (n - 1)) := by
  have hpred : (0 : ℚ) ≤ n - 1 := by
    rw [sub_nonneg]
    exact_mod_cast one_le_two.trans two
  positivity

/-- The sum of the squared deviations of a sequence from its mean. -/
def squaredDeviations (ds : List Nat) : ℚ := (ds.map (fun d : Nat => ((d : ℚ) - (ds.sum : ℚ) / ds.length) ^ 2)).sum

theorem squaredDeviations_nonneg (ds : List Nat) : 0 ≤ squaredDeviations ds :=
  List.sum_nonneg (List.forall_mem_map.mpr fun _ _ => sq_nonneg _)

/-- The squared deviations from any number, written with the sum and the sum of squares. -/
theorem sum_sq_sub (ds : List Nat) (c : ℚ) :
    (ds.map (fun d : Nat => ((d : ℚ) - c) ^ 2)).sum =
      ((ds.map (fun d => d * d)).sum : Nat) - 2 * c * ds.sum + ds.length * c ^ 2 := by
  induction ds with
  | nil => simp
  | cons d ds ih =>
    simp only [List.map_cons, List.sum_cons, List.length_cons, ih, Nat.cast_add, Nat.cast_mul, Nat.cast_one]
    ring

/-- The spread of the registers of a run is N times its squared deviations: the mean is S / N. -/
theorem spread_statsOf {ds : List Nat} (run : RunSamples ds) : spread (statsOf ds) = ds.length * squaredDeviations ds := by
  rw [spread, run.count_toNat, run.sum_toNat, run.sumsq_toNat, squaredDeviations, sum_sq_sub]
  have hlength := run.length_ne_zero
  field_simp
  ring

theorem meanOf_statsOf {ds : List Nat} (run : RunSamples ds) : meanOf (statsOf ds) = some ((ds.sum : ℚ) / ds.length) := by
  rw [meanOf_eq _ run.count_pos, run.count_toNat, run.sum_toNat]

/-- The population variance of a run is its mean squared deviation (R201). -/
theorem stddevSquared_population_statsOf {ds : List Nat} (run : RunSamples ds) :
    stddevSquared .population (statsOf ds) = some (squaredDeviations ds / ds.length) := by
  rw [stddevSquared_population _ run.count_pos, spread_statsOf run, run.count_toNat,
    mul_div_mul_left _ _ run.length_ne_zero]

/-- The sample variance of a run divides its squared deviations by N-1 (R201). -/
theorem stddevSquared_sample_statsOf {ds : List Nat} (run : RunSamples ds) (two : 2 ≤ ds.length) :
    stddevSquared .sample (statsOf ds) = some (squaredDeviations ds / (ds.length - 1)) := by
  rw [stddevSquared_sample _ (by rwa [run.count_toNat]), spread_statsOf run, run.count_toNat, mul_div_mul_left _ _ run.length_ne_zero]

/-- Settles O38: the formulas of R200 and R201 on any registers, and on a run's, whose spread is N times its squared deviations. -/
theorem summaryStatisticsAreExact : Obligations.SummaryStatisticsAreExact := by
  refine ⟨fun st pos => ⟨meanOf_eq st pos, fun hspread => ?_, fun one => ?_⟩, fun _ _ => rfl, fun ds pos short small => ?_⟩
  · have nonneg : 0 ≤ spread st := sub_nonneg.mpr hspread
    exact ⟨stddev_of_squared _ _ _ (stddevSquared_population st pos) (population_nonneg _ nonneg),
      fun two => stddev_of_squared _ _ _ (stddevSquared_sample st two) (sample_nonneg two nonneg)⟩
  · exact stddev_of_none _ _ (stddevSquared_sample_one st one)
  · have run : RunSamples ds := ⟨pos, short, small⟩
    have hpopulation := stddevSquared_population_statsOf run
    have hsample := stddevSquared_sample_statsOf run
    have hone (one : ds.length = 1) : stddevSquared .sample (statsOf ds) = none :=
      stddevSquared_sample_one _ (run.count_toNat.trans one)
    have hdeviations := squaredDeviations_nonneg ds
    have hpred : (0 : ℚ) ≤ ds.length - 1 := sub_nonneg.mpr (Nat.one_le_cast.mpr pos)
    exact ⟨meanOf_statsOf run, hpopulation, hsample, hone,
      stddev_of_squared _ _ _ hpopulation (div_nonneg hdeviations (Nat.cast_nonneg _)),
      fun two => stddev_of_squared _ _ _ (hsample two) (div_nonneg hdeviations hpred),
      fun one => stddev_of_none _ _ (hone one)⟩

end Sys2Proof.Machine
end

section
/-! The exceptions (60_exceptions.md): how long ERR and ERRCODE stay (R228), and that a bad host access is all that stops the machine (R231). -/

namespace Sys2Proof.Machine

/-! HOST's move by what is pending -/

/-- HOST's move is nothing, the pending write, the pending read, or a poll of WAIT, which is always answered (20_memory.md R63, 30_encoding.md
R80). -/
theorem hostMove_cases (s : State) :
    hostMove s = .next s ∨
    (∃ a w v rest, s.env.pending = .write a w v :: rest ∧ hostMove s = hostWrite a w v (setPending rest s)) ∨
    (∃ a w rest, s.env.pending = .read a w :: rest ∧ hostMove s = hostRead a w (setPending rest s)) ∨
    ∃ v ops, hostMove s = .next (answer (registerAddr .status) v (setPending ops s)) := by
  cases hp : s.env.pending with
  | nil => exact .inl (by simp [hostMove, hp])
  | cons op rest =>
    refine .inr ?_
    cases op with
    | write a w v => exact .inl ⟨a, w, v, rest, rfl, by simp [hostMove, hp]⟩
    | read a w => exact .inr (.inl ⟨a, w, rest, rfl, by simp [hostMove, hp]⟩)
    | wait => exact .inr (.inr ⟨_, _, (hostMove_wait s rest hp).trans (hostRead_registerAddr_stored .status _ rfl)⟩)

/-! ERR and ERRCODE -/

/-- A register write leaves STATUS or issues (20_memory.md R54, R59). -/
theorem writeRegister_status (r : Register) (v : BusWord) (s : State) :
    (writeRegister r v s).status = s.status ∨ (writeRegister r v s).status = s.status.issued := by
  rcases writeRegister_cases r v s with h | ⟨-, -, h⟩ | ⟨c, a, b, t, d, h⟩ <;> rw [h]
  · exact .inl rfl
  · exact .inr rfl
  · exact .inl rfl

/-- HOST's move leaves STATUS or issues. -/
theorem hostMove_status (s t : State) (h : hostMove s = .next t) : t.status = s.status ∨ t.status = s.status.issued := by
  rcases hostMove_cases s with hmove | ⟨a, w, v, rest, -, hmove⟩ | ⟨a, w, rest, -, hmove⟩ | ⟨v, ops, hmove⟩ <;> rw [hmove] at h
  · cases h
    exact .inl rfl
  · rcases hostWriteUnder_next _ _ _ _ _ _ h with rfl | ⟨r, -, rfl⟩
    · exact .inl rfl
    · exact writeRegister_status r v (setPending rest s)
  · rcases hostReadUnder_next _ _ _ _ _ h with ⟨v, rfl⟩ | ⟨-, rfl⟩ <;> exact .inl rfl
  · cases h
    exact .inl rfl

/-- Settles O54: by whose turn it is; CORE has no move while idle, and HOST's leaves STATUS or issues. -/
theorem errorStaysUntilNextIssue : Obligations.ErrorStaysUntilNextIssue := by
  intro s t idle _ hstep
  obtain ⟨u, e, hturn, -, -, -, hreset⟩ := step_turn s
  rw [hturn] at hstep
  cases u with
  | host =>
    rcases hostMove_status _ t hstep with kept | issued
    · exact .inl kept
    · exact .inr (.inl issued)
  | core =>
    cases (coreMove_idle { s with env := e } idle).symm.trans hstep
    exact .inl rfl
  | reset => exact .inr (.inr (hreset rfl))

/-! What reaches nothing -/

/-- Below 0x50 every aligned address but 0x2C is a register's (20_memory.md R52). -/
theorem registerAt_ofNat_ne_none :
    ∀ n < 0x50, n % 4 = 0 → n ≠ 0x2C → registerAt (BitVec.ofNat 17 n) ≠ none := by decide

/-- An aligned address that names nothing is one that R52 marks unmapped: the converse of `busTarget_of_unmapped`. -/
theorem unmapped_of_busTarget (tMax : Nat) (a : HostAddr) (aligned : a.extractLsb' 0 2 = 0) (h : busTarget tMax a = none) :
    Unmapped tMax a := by
  have hmod : a.toNat % 4 = 0 := by simpa using congrArg BitVec.toNat aligned
  unfold busTarget at h
  split at h
  · cases h
  · next hreg =>
    have hlow : a.toNat < 0x50 → a.toNat = 0x2C := fun low => by
      by_contra other
      exact registerAt_ofNat_ne_none a.toNat low hmod other (by rwa [BitVec.ofNat_toNat, BitVec.setWidth_eq])
    have hwindow : ¬(trecBase ≤ a.toNat ∧ a.toNat < trecBase + 8 * tMax) := fun inside => by simp [inside] at h
    unfold trecBase at hwindow
    unfold Unmapped
    omega

/-- What reaches nothing is narrow, unaligned or unmapped, and nothing else (20_memory.md R51, R53). -/
theorem accessTarget_eq_none_iff (tMax : Nat) (a : HostAddr) (w : AccessWidth) :
    accessTarget tMax a w = none ↔ w ≠ .word ∨ a.extractLsb' 0 2 ≠ 0 ∨ Unmapped tMax a := by
  refine ⟨fun h => ?_, accessTarget_of_bad tMax a w⟩
  by_cases width : w = .word
  · by_cases aligned : a.extractLsb' 0 2 = 0
    · rw [accessTarget, if_pos ⟨width, aligned⟩] at h
      exact .inr (.inr (unmapped_of_busTarget tMax a aligned h))
    · exact .inr (.inl aligned)
  · exact .inl width

/-- An access that reaches a TREC word reaches the one at its own address (20_memory.md R56). -/
theorem accessTarget_trecWord_addr (tMax : Nat) (a : HostAddr) (w : AccessWidth) (n : Nat)
    (h : accessTarget tMax a w = some (.trecWord n)) : n = a.toNat := by
  obtain ⟨-, -, htarget⟩ := accessTarget_some _ _ _ _ h
  unfold busTarget at htarget
  split at htarget
  · cases htarget
  · split at htarget
    · cases htarget
      rfl
    · cases htarget

/-! What stops the machine -/

/-- The outcome is no refusal, and a fault only of the kind `P`. -/
def StopsOnlyFor (P : Fault → Prop) (o : Outcome) : Prop := (∀ r, o ≠ .refused r) ∧ ∀ f, o = .fault f → P f

theorem StopsOnlyFor.next (P : Fault → Prop) (t : State) : StopsOnlyFor P (.next t) := ⟨nofun, nofun⟩

theorem StopsOnlyFor.fault {P : Fault → Prop} {f : Fault} (h : P f) : StopsOnlyFor P (.fault f) :=
  ⟨nofun, fun _ hf => by cases hf; exact h⟩

theorem StopsOnlyFor.mono {P Q : Fault → Prop} {o : Outcome} (h : StopsOnlyFor P o) (weaker : ∀ f, P f → Q f) : StopsOnlyFor Q o :=
  ⟨h.1, fun f hf => weaker f (h.2 f hf)⟩

/-- The fault is the bus error of an access that is narrow, unaligned or unmapped (20_memory.md R51, R53). -/
def IsBusError (a : HostAddr) (w : AccessWidth) (f : Fault) : Prop :=
  f = .busError a ∧ (w ≠ .word ∨ a.extractLsb' 0 2 ≠ 0 ∨ Unmapped Config.params.tMax a)

/-- The fault is that of an idle read of an unwritten TREC word (10_state.md R49, log 7). -/
def IsUnwrittenRead (a : HostAddr) (s : State) (f : Fault) : Prop :=
  f = .readUnwritten a ∧ s.status.busy = false ∧ Memory.readWord s.trec a.toNat = none

/-- The fault is one of R231's, of the access that is pending first. -/
def IsPendingFault (s : State) (f : Fault) : Prop :=
  ∃ a w rest,
    ((∃ v, s.env.pending = .write a w v :: rest) ∨ s.env.pending = .read a w :: rest) ∧
    (IsBusError a w f ∨ (f = .readUnwritten a ∧ s.env.pending = .read a w :: rest ∧ s.status.busy = false ∧
      Memory.readWord s.trec a.toNat = none))

/-- A write stops for a bus error only. -/
theorem hostWrite_stopsOnlyFor (a : HostAddr) (w : AccessWidth) (v : BusWord) (s : State) :
    StopsOnlyFor (IsBusError a w) (hostWrite a w v s) := by
  unfold hostWrite hostWriteUnder
  split
  · next hnone => exact .fault ⟨rfl, (accessTarget_eq_none_iff _ a w).mp hnone⟩
  · exact .next _ _
  · exact .next _ _

/-- A read stops for a bus error, or, idle, for an unwritten TREC word. -/
theorem hostRead_stopsOnlyFor (a : HostAddr) (w : AccessWidth) (s : State) :
    StopsOnlyFor (fun f => IsBusError a w f ∨ IsUnwrittenRead a s f) (hostRead a w s) := by
  unfold hostRead hostReadUnder
  split
  · next hnone => exact .fault (.inl ⟨rfl, (accessTarget_eq_none_iff _ a w).mp hnone⟩)
  · split <;> exact .next _ _
  · next n hword =>
    obtain rfl := accessTarget_trecWord_addr _ a w n hword
    split
    · exact .next _ _
    · next idle =>
      split
      · exact .next _ _
      · next unwritten => exact .fault (.inr ⟨rfl, by simpa using idle, unwritten⟩)

/-- HOST's move stops for the pending access only: nothing pending and a poll of WAIT never stop. -/
theorem hostMove_stopsOnlyFor (s : State) : StopsOnlyFor (IsPendingFault s) (hostMove s) := by
  rcases hostMove_cases s with hmove | ⟨a, w, v, rest, hp, hmove⟩ | ⟨a, w, rest, hp, hmove⟩ | ⟨v, ops, hmove⟩ <;> rw [hmove]
  · exact .next _ _
  · exact (hostWrite_stopsOnlyFor a w v _).mono fun f hbus => ⟨a, w, rest, .inl ⟨v, hp⟩, .inl hbus⟩
  · refine (hostRead_stopsOnlyFor a w _).mono fun f hf => ⟨a, w, rest, .inr hp, ?_⟩
    rcases hf with hbus | ⟨hunwritten, idle, hnone⟩
    · exact .inl hbus
    · exact .inr ⟨hunwritten, hp, idle, hnone⟩
  · exact .next _ _

/-- CORE's move always answers a next state, and so does reset. -/
theorem turnMove_stopsOnlyFor (u : Turn) (s : State) : StopsOnlyFor (IsPendingFault s) (turnMove u s) := by
  cases u with
  | host => exact hostMove_stopsOnlyFor s
  | core =>
    obtain ⟨t, hcore⟩ := coreMove_next s
    rw [turnMove, hcore]
    exact .next _ _
  | reset => exact .next _ _

/-- Settles O56: a step is the move of a turn, made with the same accesses pending. -/
theorem onlyBadHostAccessesFault : Obligations.OnlyBadHostAccessesFault := by
  intro s
  obtain ⟨u, e, hturn, hpending, -⟩ := step_turn s
  have hstops : StopsOnlyFor (IsPendingFault s) (step s) := by
    rw [hturn]
    refine (turnMove_stopsOnlyFor u { s with env := e }).mono fun f hf => ?_
    simpa only [IsPendingFault, hpending] using hf
  exact hstops

end Sys2Proof.Machine
end

section
/-! The reset input (70_reset_and_hazards.md R250): a reset turn is the whole reset, whatever is in flight. -/

namespace Sys2Proof.Machine

/-- A step with a reset turn first is the reset of the core, with that turn used up. -/
theorem step_resetTurn (s : State) (ts : List Turn) (turn : s.env.turns = .reset :: ts) :
    step s = .next (resetCore (setTurns ts s)) := by
  simp [step, machineMove, turn, turnMove]

/-- Settles O49: a reset turn is the reset of the core, which takes only the environment from the state before. -/
theorem resetStepAtAnyTime : Obligations.ResetStepAtAnyTime := by
  intro s ts turn
  have hreset := resetCore_eq (setTurns ts s)
  exact ⟨resetCore (setTurns ts s), step_resetTurn s ts turn, by rw [hreset]⟩

end Sys2Proof.Machine
end

section
/-! The agents' turns (00_scope.md R20): whose move a step is, the race of CORE's move with a read of STATUS (70_reset_and_hazards.md R260),
and that a WAIT loop ends (R259). -/

namespace Sys2Proof.Machine

/-! CORE's turn -/

/-- CORE's turn is used up and CORE moves, also with no turn fixed and a command in flight (log 2). -/
theorem step_coreTurn (s : State) (ts : List Turn)
    (turn : s.env.turns = .core :: ts ∨ (s.env.turns = [] ∧ ts = [] ∧ s.status.busy = true)) :
    step s = coreMove (setTurns ts s) := by
  rcases turn with hturns | ⟨hturns, rfl, busy⟩
  · simp [step, machineMove, hturns, turnMove]
  · have hsame : setTurns [] s = s := by simp [setTurns, ← hturns]
    simp [step, machineMove, hturns, defaultTurn, busy, turnMove, hsame]

/-- CORE's turn performs the command in flight, with the turn used up. -/
theorem step_coreTurn_legal (s : State) (i : Instr) (ts : List Turn) (busy : s.status.busy = true)
    (legal : decode s.latch.cmd = some i)
    (turn : s.env.turns = .core :: ts ∨ (s.env.turns = [] ∧ ts = [] ∧ s.status.busy = true)) :
    step s = exec i (setTurns ts s) := by
  rw [step_coreTurn s ts turn, coreMove_legal (setTurns ts s) i busy legal]

/-- Settles O6: both turns are CORE's, and with no turn fixed there is none to use up. -/
theorem coreTurnRunsDecodedCommand : Obligations.CoreTurnRunsDecodedCommand := by
  refine fun s i _ busy legal => ⟨fun noTurns => ?_, fun ts turn => step_coreTurn_legal s i ts busy legal (.inl turn)⟩
  have hsame : setTurns [] s = s := by simp [setTurns, ← noTurns]
  rw [step_coreTurn_legal s i [] busy legal (.inr ⟨noTurns, rfl, busy⟩), hsame]

/-- A command's bits, taken as a number, are its word (30_encoding.md R75). -/
theorem commandWord_encode (i : Instr) : commandWord 32 (encode i).toNat = encode i := by
  rw [commandWord, Nat.mod_eq_of_lt (encode i).isLt, BitVec.ofNat_toNat, BitVec.setWidth_eq]

/-- Settles O8: the command placed is in flight with CORE's turn first, and using that turn up leaves what the issue left. -/
theorem placedCommandRunsNext : Obligations.PlacedCommandRunsNext := by
  intro s i
  have hplaced : s.withFetchWord 32 (encode i).toNat = setTurns (.core :: s.env.turns) (issue (encode i) s) := by
    rw [State.withFetchWord, commandWord_encode, placeCommand]
  have hlegal : decode (issue (encode i) s).latch.cmd = some i := (decode_eq_some_iff _ i).mpr rfl
  have hstep := step_coreTurn_legal (setTurns (.core :: s.env.turns) (issue (encode i) s)) i s.env.turns rfl hlegal (.inl rfl)
  have hissued : setTurns s.env.turns (setTurns (.core :: s.env.turns) (issue (encode i) s)) = issue (encode i) s := rfl
  rw [hplaced, hstep, hissued, issue_eq]

/-- CORE's move completes the command in flight, legal or not (30_encoding.md R78). -/
theorem coreMove_completedFrom (s : State) (busy : s.status.busy = true) : ∃ t, coreMove s = .next t ∧ CompletedFrom s t := by
  obtain ⟨f, hf, hmove, -⟩ := coreMove_same_latch s s busy busy rfl
  exact ⟨f s, hmove, hf.completedFrom s⟩

/-! The race after an issue -/

/-- HOST's turn with a CMD write pending, while idle, issues the word. -/
theorem step_issue (s : State) (ts : List Turn) (v : BusWord) (rest : List HostOp) (idle : s.status.busy = false)
    (turn : s.env.turns = .host :: ts) (hp : s.env.pending = .write 0x00000 .word v :: rest) :
    ∃ t, step s = .next t ∧ t.status = s.status.issued ∧ t.env = { s.env with turns := ts, pending := rest } := by
  obtain ⟨hwrite, -, -, -⟩ := hostTurnMakesPendingAccess s ts (.inl turn)
  refine ⟨issue v (setPending rest (setTurns ts s)), ?_, rfl, rfl⟩
  rw [hwrite _ _ _ _ hp]
  exact (hostWrite_registerAddr .cmd v _).trans (congrArg _ (writeRegister_cmd_idle v _ idle))

/-- HOST's turn with a STATUS read pending, busy or idle, answers BUSY and DONE as they are. -/
theorem run_readStatus (s : State) (ts : List Turn) (rest : List HostOp) (turn : s.env.turns = .host :: ts)
    (hp : s.env.pending = .read 0x00004 .word :: rest) :
    ∃ t a, Host.Core.run Sys2Proof.core 1 s = .next t ∧ t.env.answers = a :: s.env.answers ∧
      a.data.getLsbD 0 = s.status.busy ∧ a.data.getLsbD 1 = s.status.done := by
  obtain ⟨-, hread, -, -⟩ := hostTurnMakesPendingAccess s ts (.inl turn)
  have hstep := (hread _ _ _ hp).trans (hostRead_registerAddr_stored .status _ rfl)
  obtain ⟨hbusy, hdone, -⟩ := statusWord_fields s.status
  exact ⟨_, _, (run_succ s _ 0 hstep).trans (run_zero _), rfl, hbusy, hdone⟩

/-- Settles O55: the read answers the STATUS of the issue, or, with CORE's turn between, of the completion. -/
theorem statusReadAfterIssueRaces : Obligations.StatusReadAfterIssueRaces := by
  refine fun s v idle hp => ⟨fun turns => ?_, fun turns => ?_⟩
  · obtain ⟨t, hissue, hstatus, henv⟩ := step_issue s [.host] v _ idle turns hp
    obtain ⟨u, a, hread, hanswers, hbusy, -⟩ := run_readStatus t [] [] (by rw [henv]) (by rw [henv])
    rw [run_succ s t _ hissue]
    exact ⟨u, a, hread, by rw [hanswers, henv], by rw [hbusy, hstatus]; rfl⟩
  · obtain ⟨t, hissue, hstatus, henv⟩ := step_issue s [.core, .host] v _ idle turns hp
    have busy : (setTurns [.host] t).status.busy = true := by rw [setTurns_status, hstatus]; rfl
    obtain ⟨u, hmove, hidle, hcompleted, henv', -⟩ := coreMove_completedFrom (setTurns [.host] t) busy
    have hcore := (step_coreTurn t [.host] (.inl (by rw [henv]))).trans hmove
    rw [setTurns_env, henv] at henv'
    obtain ⟨w, a, hread, hanswers, hbusy, hdone⟩ := run_readStatus u [] [] (by rw [henv']) (by rw [henv'])
    rw [run_succ s t _ hissue, run_succ t u _ hcore]
    exact ⟨w, a, hread, by rw [hanswers, henv'], hbusy.trans hidle, hdone.trans hcompleted⟩

/-! WAIT -/

/-- HOST's turn with WAIT pending leaves STATUS, uses the turn up, and ends WAIT exactly when the core is idle (30_encoding.md R80). -/
theorem step_wait (s : State) (ts : List Turn) (rest : List HostOp) (hp : s.env.pending = .wait :: rest)
    (turn : s.env.turns = .host :: ts ∨ (s.env.turns = [] ∧ ts = [] ∧ s.status.busy = false)) :
    ∃ t, step s = .next t ∧ t.status = s.status ∧ t.env.turns = ts ∧
      t.env.pending = if s.status.busy then .wait :: rest else rest := by
  obtain ⟨-, -, hwait, -⟩ := hostTurnMakesPendingAccess s ts turn
  exact ⟨_, (hwait rest hp).trans (hostRead_registerAddr_stored .status _ rfl), rfl, rfl, rfl⟩

/-- WAIT is over: the host is at what follows it, and the core is idle. -/
def WaitOver (rest : List HostOp) (s : State) : Prop := s.env.pending = rest ∧ s.status.busy = false

/-- A run of at most `n` steps ends the WAIT before `rest`. -/
def WaitEndsWithin (n : Nat) (rest : List HostOp) (s : State) : Prop :=
  ∃ m t, m ≤ n ∧ Host.Core.run Sys2Proof.core m s = .next t ∧ WaitOver rest t

theorem WaitOver.endsWithin {rest : List HostOp} {s : State} (ended : WaitOver rest s) (n : Nat) : WaitEndsWithin n rest s :=
  ⟨0, s, n.zero_le, run_zero s, ended⟩

/-- One step before the run costs one step more. -/
theorem WaitEndsWithin.of_step {n : Nat} {rest : List HostOp} {s t : State} (hstep : step s = .next t)
    (ends : WaitEndsWithin n rest t) : WaitEndsWithin (n + 1) rest s := by
  obtain ⟨m, u, hm, hrun, ended⟩ := ends
  exact ⟨m + 1, u, Nat.succ_le_succ hm, (run_succ s t m hstep).trans hrun, ended⟩

/-- A turn fixed ahead, of any agent, ends WAIT or is used up with WAIT still first. -/
theorem step_waiting (s : State) (u : Turn) (ts : List Turn) (rest : List HostOp) (hp : s.env.pending = .wait :: rest)
    (turn : s.env.turns = u :: ts) :
    ∃ t, step s = .next t ∧ (WaitOver rest t ∨ (t.env.pending = .wait :: rest ∧ t.env.turns = ts)) := by
  cases u with
  | host =>
    obtain ⟨t, hstep, hstatus, hturns, hpending⟩ := step_wait s ts rest hp (.inl turn)
    refine ⟨t, hstep, ?_⟩
    cases hbusy : s.status.busy with
    | false => exact .inl ⟨by rw [hpending, hbusy]; rfl, by rw [hstatus, hbusy]⟩
    | true => exact .inr ⟨by rw [hpending, hbusy]; rfl, hturns⟩
  | core =>
    obtain ⟨t, hmove⟩ := coreMove_next (setTurns ts s)
    have henv := change_env _ t (coreMove_change _ t hmove)
    exact ⟨t, (step_coreTurn s ts (.inl turn)).trans hmove, .inr (by rw [henv]; exact ⟨hp, rfl⟩)⟩
  | reset => exact ⟨_, step_resetTurn s ts turn, .inr ⟨hp, rfl⟩⟩

/-- With no turn fixed an idle core ends WAIT with one read. -/
theorem waitEndsWithin_idle (s : State) (rest : List HostOp) (hp : s.env.pending = .wait :: rest) (noTurns : s.env.turns = [])
    (idle : s.status.busy = false) : WaitEndsWithin 1 rest s := by
  obtain ⟨t, hstep, hstatus, -, hpending⟩ := step_wait s [] rest hp (.inr ⟨noTurns, rfl, idle⟩)
  have ended : WaitOver rest t := ⟨by rw [hpending, idle]; rfl, by rw [hstatus, idle]⟩
  exact (ended.endsWithin 0).of_step hstep

/-- With no turn fixed a command in flight first completes, which is CORE's weak fairness (70_reset_and_hazards.md R259). -/
theorem waitEndsWithin_busy (s : State) (rest : List HostOp) (hp : s.env.pending = .wait :: rest) (noTurns : s.env.turns = [])
    (busy : s.status.busy = true) : WaitEndsWithin 2 rest s := by
  obtain ⟨t, hmove, hidle, -, henv, -⟩ := coreMove_completedFrom (setTurns [] s) busy
  have hstep := (step_coreTurn s [] (.inr ⟨noTurns, rfl, busy⟩)).trans hmove
  exact (waitEndsWithin_idle t rest (by rw [henv]; exact hp) (by rw [henv]; rfl) hidle).of_step hstep

/-- WAIT ends within two steps past the turns fixed ahead. -/
theorem waitEndsWithin_turns (ts : List Turn) (rest : List HostOp) :
    ∀ s : State, s.env.pending = .wait :: rest → s.env.turns = ts → WaitEndsWithin (ts.length + 2) rest s := by
  induction ts with
  | nil =>
    intro s hp noTurns
    cases hbusy : s.status.busy with
    | false =>
      obtain ⟨m, t, hm, hrun, ended⟩ := waitEndsWithin_idle s rest hp noTurns hbusy
      exact ⟨m, t, hm.trans one_le_two, hrun, ended⟩
    | true => exact waitEndsWithin_busy s rest hp noTurns hbusy
  | cons u ts ih =>
    intro s hp turn
    obtain ⟨t, hstep, ended | ⟨hpending, hturns⟩⟩ := step_waiting s u ts rest hp turn
    · exact (ended.endsWithin _).of_step hstep
    · exact (ih t hpending hturns).of_step hstep

/-- Settles O10: CORE's move completes, and WAIT ends by induction on the turns fixed ahead. -/
theorem waitLoopEnds : Obligations.WaitLoopEnds := by
  refine ⟨fun s busy => ?_, fun s rest hp => waitEndsWithin_turns s.env.turns rest s hp rfl⟩
  obtain ⟨t, hmove, hidle, hdone, -⟩ := coreMove_completedFrom s busy
  exact ⟨t, hmove, hidle, hdone⟩

end Sys2Proof.Machine
end

section
/-! Unwritten TREC words (10_state.md R49): their reads fault while idle, and only a run of the harness writes one. -/

namespace Sys2Proof.Machine

/-- An idle read of an unwritten TREC word faults. -/
theorem hostRead_trecWord_unwritten (s : State) (i j : Nat) (hi : i < Config.params.tMax) (hj : j < 2)
    (idle : s.status.busy = false) (unwritten : Memory.readWord s.trec (0x10000 + 8 * i + 4 * j) = none) :
    hostRead (BitVec.ofNat 17 (0x10000 + 8 * i + 4 * j)) .word s =
      .fault (.readUnwritten (BitVec.ofNat 17 (0x10000 + 8 * i + 4 * j))) := by
  simp [hostRead, hostReadUnder, accessTarget_trecWord _ i j (tMax_le Config.params) hi hj, idle, unwritten]

/-- No word of an empty memory is written. -/
theorem readWord_nil (a : Nat) : Memory.readWord [] a = none := rfl

/-- A step with a reset turn first leaves TREC empty (70_reset_and_hazards.md R251). -/
theorem step_resetTurn_trec (s t : State) (turn : s.env.turns.head? = some .reset) (hstep : step s = .next t) : t.trec = [] := by
  obtain ⟨ts, hturns⟩ := List.head?_eq_some_iff.mp turn
  cases (step_resetTurn s ts hturns).symm.trans hstep
  rfl

/-- Settles O41: a reset step leaves no word written, and any other step that changes TREC performs a harness command. -/
theorem unwrittenRecordReadsFault : Obligations.UnwrittenRecordReadsFault := by
  refine ⟨hostRead_trecWord_unwritten, readWord_nil, fun s t a hstep unwritten written => ?_⟩
  have noReset : s.env.turns.head? ≠ some .reset := fun turn => by
    rw [step_resetTurn_trec s t turn hstep] at written
    exact written (readWord_nil a)
  have changed : t.trec ≠ s.trec := fun same => written (by rw [same, unwritten])
  obtain ⟨-, -, hwritten⟩ := outputsWrittenOnlyByTheirCommands s t hstep noReset
  obtain ⟨busy, -, -, x, hdec, -, pos, le⟩ := hwritten fun same => changed (congrArg Prod.fst same)
  refine ⟨busy, ?_, pos, le⟩
  cases x with
  | pt => exact .inl hdec
  | key => exact .inr hdec

end Sys2Proof.Machine
end
